-- ==== Sys2Proof/Word.lean ====
section
/-! DEFINITION. The words of the PJB-16: bytes of ring frames, ids, and the index types of the sixteen heads,
the eight cache entries and the four tiers (00_scope.md 5.6, 09_station_ring.md R167). -/

namespace Sys2Proof

/-- One byte of a ring frame. -/
abbrev Byte := BitVec 8

/-- A 16-bit joint class id; its low bits are compared under a mask (R26). -/
abbrev ClassId := BitVec 16

/-- A 32-bit carrier id (R45). -/
abbrev CarrierId := BitVec 32

/-- A head number, 0 to 15. -/
abbrev Head := Fin 16

/-- A Class Cache entry number, 0 to 7 (R25). -/
abbrev EntryIx := Fin 8

/-- A power priority tier, 0 (highest) to 3 (R2). -/
abbrev Tier := Fin 4

/-- One value for each of the sixteen heads. -/
abbrev PerHead (α : Type) := Vector α 16

/-- One value for each of the eight cache entries. -/
abbrev PerEntry (α : Type) := Vector α 8

end Sys2Proof
end

