-- ==== Sys2Proof/Syntax.lean ====
section
/-! DEFINITION. The commands of the PJB-16: one constructor per row of spec/opcode_table.json, and the ring frame. -/

namespace Sys2Proof

/-- A ring frame without its length field and CRC, which follow from the payload (R153, R167). -/
structure Frame where
  dest : Byte
  src : Byte
  kind : Byte
  tag : Byte
  payload : List Byte
  deriving DecidableEq, Repr

/-- The steps of the PJB-16, each whole and indivisible (95_what_each_step_holds.md).
A command that stands for a consumed ring frame carries the frame's source node, its tag where it is answered,
and its payload; the payload of a request is given without the request code at its offset 0 (`body`). -/
inductive Instr where
  /-- IDENTIFY (R163). -/
  | identify (src tag : Byte) (body : List Byte)
  /-- SET_STATION (R162). -/
  | setStation (src tag : Byte) (body : List Byte)
  /-- SET_BUDGET (R121). -/
  | setBudget (src tag : Byte) (body : List Byte)
  /-- SET_HEAD (R65). -/
  | setHead (src tag : Byte) (body : List Byte)
  /-- READ_HEAD (R86). -/
  | readHead (src tag : Byte) (body : List Byte)
  /-- WRITE_STEPS (R20). -/
  | writeSteps (src tag : Byte) (body : List Byte)
  /-- READ_STEPS (R22). -/
  | readSteps (src tag : Byte) (body : List Byte)
  /-- READ_CLASS (R43). -/
  | readClass (src tag : Byte) (body : List Byte)
  /-- FLUSH_CLASS (R42). -/
  | flushClass (src tag : Byte) (body : List Byte)
  /-- HALT (R82, R83). -/
  | halt (src tag : Byte) (body : List Byte)
  /-- CLEAR_FAULT (R85). -/
  | clearFault (src tag : Byte) (body : List Byte)
  /-- READ_RECORDS (R145). -/
  | readRecords (src tag : Byte) (body : List Byte)
  /-- SET_NOTICES (R174). -/
  | setNotices (src tag : Byte) (body : List Byte)
  /-- READ_STATUS (R175). -/
  | readStatus (src tag : Byte) (body : List Byte)
  /-- RESET_STATION (R164). -/
  | resetStation (src tag : Byte) (body : List Byte)
  /-- UNKNOWN_REQUEST (R161): a REQUEST frame whose whole payload is empty or begins with an unassigned code. -/
  | unknownRequest (src tag : Byte) (payload : List Byte)
  /-- CARRIER (R47). -/
  | carrier (src tag : Byte) (payload : List Byte)
  /-- RELEASE (R55). -/
  | release (src tag : Byte) (payload : List Byte)
  /-- CLASSLOAD (R36). -/
  | classload (src tag : Byte) (payload : List Byte)
  /-- SAMPLE (R91). -/
  | sample (src : Byte) (payload : List Byte)
  /-- DSTAT (R100). -/
  | dstat (src : Byte) (payload : List Byte)
  /-- PURGE with report OK for a carrier (R53). -/
  | purgeOk (src : Byte) (carrier : CarrierId)
  /-- PURGE with report LOST for a carrier (R54). -/
  | purgeLost (src : Byte) (carrier : CarrierId)
  /-- FRAME_ARRIVAL (R154): the bytes received at RIN. -/
  | frameArrival (bytes : List Byte)
  /-- RING_OUT_SEND (R159). -/
  | ringOutSend
  /-- INTERLOCK_OPENING (R56): the ILK pin falls. -/
  | interlockOpening
  /-- INTERLOCK_CLOSING (R57): the ILK pin rises. -/
  | interlockClosing
  /-- DEVICE_RESET (R88). -/
  | deviceReset
  /-- DEVICE_RESET_END (R152): the levels of ADDR0 to ADDR7 and of ILK (high is `true`) at the end of device reset. -/
  | deviceResetEnd (strap : Byte) (ilk : Bool)
  /-- STALENESS_EXPIRY of one head (R96). -/
  | stalenessExpiry (head : Head)
  /-- DWELL_EXPIRY of one head (R68). -/
  | dwellExpiry (head : Head)
  /-- STEP_TIMEOUT of one head (R12). -/
  | stepTimeout (head : Head)
  /-- FETCH_TIMER_EXPIRY of one cache entry (R35). -/
  | fetchTimerExpiry (entry : EntryIx)
  /-- SETTLE_TIMER_EXPIRY of one head (R58). -/
  | settleTimerExpiry (head : Head)
  /-- SERVICE (R97, R98). -/
  | service
  deriving DecidableEq, Repr

end Sys2Proof
end

