-- ==== Sys2Proof/Config.lean ====
section
/-! DEFINITION. What is fixed for every PJB-16: its capacities and identity codes, and the free value of the model. It has
no body, so no proof can see what it is. -/

namespace Sys2Proof.Config

/-- Step words of the Step Store (R1). -/
@[simp, reducible] def stepWords : Nat := 1024

/-- Records the Record Queue holds (R139). -/
@[simp, reducible] def recordCapacity : Nat := 32

/-- Frames of the general queue, reserved places included (R158). -/
@[simp, reducible] def generalCapacity : Nat := 8

/-- Frames of the forward buffer (R155). -/
@[simp, reducible] def forwardCapacity : Nat := 4

/-- Entries of the Carrier Table (R45). -/
@[simp, reducible] def carrierCapacity : Nat := 2

/-- Upper limit of the ring counters and of the missed-sample and overrun counts (R165, R66). -/
@[simp, reducible] def countLimit : Nat := 65535

/-- Upper limit of the step clock and of the time above liquidus, in ms (R4, R66). -/
@[simp, reducible] def clockLimit : Nat := 16000000

/-- Upper limit of the energy accumulator, in 10 mJ (R66). -/
@[simp, reducible] def energyLimit : Nat := 4294967295

/-- Largest temperature, in T-units (00_scope.md 5.2). -/
@[simp, reducible] def tempLimit : Nat := 16000

/-- Largest power of one head, in P-units (00_scope.md 5.2). -/
@[simp, reducible] def powerLimit : Nat := 2500

/-- Largest station budget, in P-units (R121). -/
@[simp, reducible] def budgetLimit : Nat := 16000

/-- Vendor code reported by IDENTIFY (R163). -/
@[simp, reducible] def vendorCode : Nat := 0x0A3C

/-- Part code reported by IDENTIFY (R163). -/
@[simp, reducible] def partCode : Nat := 0x1016

/-- Revision reported by IDENTIFY (R163). -/
@[simp, reducible] def revision : Nat := 1

/-- FREE VALUE (log entry 3). Several timers may run out in the same millisecond; which expiry is taken first is left
open (R14, R41, R62, R87, R119). Expiries of the millisecond `now` are taken in the order of this rank. -/
opaque expiryRank (now : Nat) (expiry : Instr) : Nat

end Sys2Proof.Config
end

