-- ==== Sys2Proof/WellFormed.lean ====
section
/-! DEFINITION. Which terms of `Instr` spell a command of the table: a consumed frame names a source node that can
send (R156), its payload fits a frame (R153), and an UNKNOWN_REQUEST carries no assigned request code (R161). -/

namespace Sys2Proof

/-- A node that can send a frame: 0 names no node and 255 is broadcast (R152, R156). -/
def sendingNode (src : Byte) : Bool := src != 0 && src != 255

/-- The request codes 01h to 0Fh are assigned (R167). -/
def assignedCode (code : Byte) : Bool := 1 ≤ code.toNat && code.toNat ≤ 15

/-- A payload that is empty or begins with an unassigned request code (R161). -/
def unassignedPayload : List Byte → Bool
  | [] => true
  | code :: _ => !assignedCode code

/-- The well-formed commands. -/
def Instr.wellFormed : Instr → Bool
  | .identify src _ body => sendingNode src && body.length ≤ 511
  | .setStation src _ body => sendingNode src && body.length ≤ 511
  | .setBudget src _ body => sendingNode src && body.length ≤ 511
  | .setHead src _ body => sendingNode src && body.length ≤ 511
  | .readHead src _ body => sendingNode src && body.length ≤ 511
  | .writeSteps src _ body => sendingNode src && body.length ≤ 511
  | .readSteps src _ body => sendingNode src && body.length ≤ 511
  | .readClass src _ body => sendingNode src && body.length ≤ 511
  | .flushClass src _ body => sendingNode src && body.length ≤ 511
  | .halt src _ body => sendingNode src && body.length ≤ 511
  | .clearFault src _ body => sendingNode src && body.length ≤ 511
  | .readRecords src _ body => sendingNode src && body.length ≤ 511
  | .setNotices src _ body => sendingNode src && body.length ≤ 511
  | .readStatus src _ body => sendingNode src && body.length ≤ 511
  | .resetStation src _ body => sendingNode src && body.length ≤ 511
  | .unknownRequest src _ payload => sendingNode src && payload.length ≤ 512 && unassignedPayload payload
  | .carrier src _ payload => sendingNode src && payload.length ≤ 512
  | .release src _ payload => sendingNode src && payload.length ≤ 512
  | .classload src _ payload => sendingNode src && payload.length ≤ 512
  | .sample src payload => sendingNode src && payload.length ≤ 512
  | .dstat src payload => sendingNode src && payload.length ≤ 512
  | .purgeOk src _ => sendingNode src
  | .purgeLost src _ => sendingNode src
  | .frameArrival _ => true
  | .ringOutSend => true
  | .interlockOpening => true
  | .interlockClosing => true
  | .deviceReset => true
  | .deviceResetEnd _ _ => true
  | .stalenessExpiry _ => true
  | .dwellExpiry _ => true
  | .stepTimeout _ => true
  | .fetchTimerExpiry _ => true
  | .settleTimerExpiry _ => true
  | .service => true

end Sys2Proof
end

