-- ==== Sys2Proof/Decode.lean ====
section
/-! DEFINITION. From bits to commands. The opcode table gives bits to none of its rows, so `decodeTableWord` spells no
command. Below it stand the byte order, the CRC, the frame and the reading of a frame's kind and request code
(09_station_ring.md R153, R161, R167), and the frame that spells a command. -/

namespace Sys2Proof

/-- The command a word of the opcode table spells: no row of spec/opcode_table.json carries bits. -/
def decodeTableWord (_nbits _w : Nat) : Option Instr := none

/-! ### Byte order (R167: high byte first; an unnamed bit or byte is not examined on arrival and is sent as 0) -/

/-- The byte at offset `i` of a payload; an offset past the end reads 0 and is guarded by the LENGTH checks. -/
def byteAt (p : List Byte) (i : Nat) : Byte := p.getD i 0

/-- A one-byte unsigned field. -/
def u8At (p : List Byte) (i : Nat) : Nat := (byteAt p i).toNat

/-- A two-byte unsigned field. -/
def u16At (p : List Byte) (i : Nat) : Nat := u8At p i * 256 + u8At p (i + 1)

/-- A two-byte id. -/
def id16At (p : List Byte) (i : Nat) : BitVec 16 := BitVec.ofNat 16 (u16At p i)

/-- A four-byte id. -/
def id32At (p : List Byte) (i : Nat) : BitVec 32 := BitVec.ofNat 32 (u16At p i * 65536 + u16At p (i + 2))

/-- A two-byte field in two's complement. -/
def i16At (p : List Byte) (i : Nat) : Int := (id16At p i).toInt

/-- Bit `b` of the byte at offset `i`. -/
def flagAt (p : List Byte) (i b : Nat) : Bool := (byteAt p i).getLsbD b

/-- One byte of an unsigned value. -/
def be8 (n : Nat) : List Byte := [BitVec.ofNat 8 n]

/-- Two bytes of an unsigned value, high byte first. -/
def be16 (n : Nat) : List Byte := [BitVec.ofNat 8 (n / 256), BitVec.ofNat 8 n]

/-- Four bytes of an unsigned value, high byte first. -/
def be32 (n : Nat) : List Byte := be16 (n / 65536) ++ be16 n

/-- Two bytes of a signed value in two's complement. -/
def be16s (i : Int) : List Byte := be16 (BitVec.ofInt 16 i).toNat

/-- A number from flags, the first at bit 0. -/
def flagsNat : List Bool → Nat
  | [] => 0
  | b :: bs => b.toNat + 2 * flagsNat bs

/-- One byte of flags, the first at bit 0. -/
def flagsByte (bs : List Bool) : List Byte := be8 (flagsNat bs)

/-! ### CRC-16 (R153) -/

/-- One shift of the CRC with polynomial 1021h. -/
def crcShift (c : BitVec 16) : BitVec 16 := if c.msb then (c <<< 1) ^^^ 0x1021#16 else c <<< 1

/-- One byte enters the CRC, most significant bit first. -/
def crcByte (c : BitVec 16) (b : Byte) : BitVec 16 :=
  Nat.repeat crcShift 8 (c ^^^ (b.setWidth 16 <<< 8))

/-- The CRC of a run of bytes, from the initial value FFFFh. -/
def crc16 (bs : List Byte) : BitVec 16 := bs.foldl crcByte 0xFFFF#16

/-! ### Frames (R153, R167) -/

/-- The header and payload of a frame, over which the CRC is computed. -/
def Frame.body (f : Frame) : List Byte :=
  f.dest :: f.src :: f.kind :: f.tag :: (be16 f.payload.length ++ f.payload)

/-- The bytes of a frame on the ring. -/
def Frame.bytes (f : Frame) : List Byte := f.body ++ be16 (crc16 f.body).toNat

/-- The two checks of R153: the number of bytes received fits the declared payload length, which is at most 512, and
the CRC over header and payload equals the received one. `none` is a frame that fails a check. -/
def parseFrame (bs : List Byte) : Option Frame :=
  let len := u16At bs 4
  if bs.length = len + 8 ∧ len ≤ 512 ∧ crc16 (bs.take (len + 6)) = id16At bs (len + 6) then
    some { dest := byteAt bs 0, src := byteAt bs 1, kind := byteAt bs 2, tag := byteAt bs 3,
           payload := (bs.drop 6).take len }
  else none

/-- The kinds of frame the part takes: REQUEST, CARRIER, RELEASE, CLASSLOAD, SAMPLE, DSTAT and PURGE (R156, R167). -/
def takenKind (kind : Byte) : Bool :=
  [0x01, 0x03, 0x04, 0x05, 0x10, 0x11, 0x13].contains kind.toNat

/-- The row a REQUEST payload names by its request code, codes 01h to 0Fh (R161, R167). -/
def requestOf (src tag : Byte) (payload : List Byte) : Instr :=
  match payload with
  | [] => .unknownRequest src tag []
  | code :: body =>
    match code.toNat with
    | 0x01 => .identify src tag body
    | 0x02 => .setStation src tag body
    | 0x03 => .setBudget src tag body
    | 0x04 => .setHead src tag body
    | 0x05 => .readHead src tag body
    | 0x06 => .writeSteps src tag body
    | 0x07 => .readSteps src tag body
    | 0x08 => .readClass src tag body
    | 0x09 => .flushClass src tag body
    | 0x0A => .halt src tag body
    | 0x0B => .clearFault src tag body
    | 0x0C => .readRecords src tag body
    | 0x0D => .setNotices src tag body
    | 0x0E => .readStatus src tag body
    | 0x0F => .resetStation src tag body
    | _ => .unknownRequest src tag (code :: body)

/-- The row a PURGE payload names; `none` where its length is wrong or its report is neither OK nor LOST (R53). -/
def purgeOf (src : Byte) (payload : List Byte) : Option Instr :=
  if payload.length = 5 then
    match u8At payload 4 with
    | 0x01 => some (.purgeOk src (id32At payload 0))
    | 0x02 => some (.purgeLost src (id32At payload 0))
    | _ => none
  else none

/-- The row of the table that a consumed frame spells; `none` for a kind the part does not take and for a PURGE that
R53 discards unread (R156). -/
def commandOf (f : Frame) : Option Instr :=
  match f.kind.toNat with
  | 0x01 => some (requestOf f.src f.tag f.payload)
  | 0x03 => some (.carrier f.src f.tag f.payload)
  | 0x04 => some (.release f.src f.tag f.payload)
  | 0x05 => some (.classload f.src f.tag f.payload)
  | 0x10 => some (.sample f.src f.payload)
  | 0x11 => some (.dstat f.src f.payload)
  | 0x13 => purgeOf f.src f.payload
  | _ => none

/-- A REQUEST frame. -/
def requestFrame (dest src tag : Byte) (code : Nat) (body : List Byte) : Frame :=
  { dest, src, kind := 0x01, tag, payload := BitVec.ofNat 8 code :: body }

/-- The frame that spells a command to node `dest`; `none` for a command that is no consumed frame. A frame that is
not answered is written with tag 0. -/
def frameOf (dest : Byte) : Instr → Option Frame
  | .identify src tag body => some (requestFrame dest src tag 0x01 body)
  | .setStation src tag body => some (requestFrame dest src tag 0x02 body)
  | .setBudget src tag body => some (requestFrame dest src tag 0x03 body)
  | .setHead src tag body => some (requestFrame dest src tag 0x04 body)
  | .readHead src tag body => some (requestFrame dest src tag 0x05 body)
  | .writeSteps src tag body => some (requestFrame dest src tag 0x06 body)
  | .readSteps src tag body => some (requestFrame dest src tag 0x07 body)
  | .readClass src tag body => some (requestFrame dest src tag 0x08 body)
  | .flushClass src tag body => some (requestFrame dest src tag 0x09 body)
  | .halt src tag body => some (requestFrame dest src tag 0x0A body)
  | .clearFault src tag body => some (requestFrame dest src tag 0x0B body)
  | .readRecords src tag body => some (requestFrame dest src tag 0x0C body)
  | .setNotices src tag body => some (requestFrame dest src tag 0x0D body)
  | .readStatus src tag body => some (requestFrame dest src tag 0x0E body)
  | .resetStation src tag body => some (requestFrame dest src tag 0x0F body)
  | .unknownRequest src tag payload => some { dest, src, kind := 0x01, tag, payload }
  | .carrier src tag payload => some { dest, src, kind := 0x03, tag, payload }
  | .release src tag payload => some { dest, src, kind := 0x04, tag, payload }
  | .classload src tag payload => some { dest, src, kind := 0x05, tag, payload }
  | .sample src payload => some { dest, src, kind := 0x10, tag := 0, payload }
  | .dstat src payload => some { dest, src, kind := 0x11, tag := 0, payload }
  | .purgeOk src carrier =>
    some { dest, src, kind := 0x13, tag := 0, payload := be32 carrier.toNat ++ be8 0x01 }
  | .purgeLost src carrier =>
    some { dest, src, kind := 0x13, tag := 0, payload := be32 carrier.toNat ++ be8 0x02 }
  | .frameArrival _ => none
  | .ringOutSend => none
  | .interlockOpening => none
  | .interlockClosing => none
  | .deviceReset => none
  | .deviceResetEnd _ _ => none
  | .stalenessExpiry _ => none
  | .dwellExpiry _ => none
  | .stepTimeout _ => none
  | .fetchTimerExpiry _ => none
  | .settleTimerExpiry _ => none
  | .service => none

end Sys2Proof
end

