-- ==== Sys2Proof/Machine/State.lean ====
section
/-! DEFINITION. Everything the manual gives the PJB-16: the state of its ten blocks (00_scope.md 3), as plain data, and
its value right after device reset. Fields of the model's own are marked so. -/

namespace Sys2Proof.Machine

/-! ### Step Store (chapter 1) -/

/-- The five step kinds (R2). -/
inductive Kind where
  | ramp | soak | hold | feed | cool
  deriving DecidableEq, Repr

/-- A step word (R2). Its kind code is stored as written, valid or not. A word of zeros is the word after device reset. -/
structure StepWord where
  code : Fin 16 := 0
  next : Bool := false
  cont : Bool := false
  wet : Bool := false
  tier : Tier := 0
  target : Nat := 0
  window : Nat := 0
  param : Nat := 0
  limit : Nat := 0
  ceiling : Nat := 0
  base : Nat := 0
  deriving DecidableEq, Repr

/-- The Step Store: (address, word) pairs with addresses strictly rising and no pair that holds the zero word, which is
what an address not listed reads as (R1). -/
abbrev StepStore := List (Nat × StepWord)

/-! ### Class Cache (chapter 2) -/

/-- Retention of a class, the weakest first (R23, R30). -/
inductive Retention where
  | low | medium | high
  deriving DecidableEq, Repr

/-- A class descriptor (R23), as clamped by R24. Trims are in per-mille. -/
structure ClassDesc where
  classId : ClassId
  span : Fin 4
  retention : Retention
  start : Nat
  firstPage : Nat
  pageCount : Nat
  liquidus : Nat
  maxTemp : Nat
  minWet : Nat
  kp : Nat
  ki : Nat
  settle : Nat
  trims : List Int
  deriving DecidableEq, Repr

/-- State of a cache entry with what it holds in that state (R25). -/
inductive EntryBody where
  | invalid
  | fetching (tag : ClassId) (timer : Nat)
  | resident (tag : ClassId) (desc : ClassDesc)
  deriving DecidableEq, Repr

/-- A cache entry: its state, user count and recency position (R25, R27). -/
structure Entry where
  body : EntryBody
  users : Nat
  recency : Nat
  deriving DecidableEq, Repr

/-- A member of the cache-wait list with its requested class id and refresh flag (R32). -/
structure Waiter where
  head : Head
  classId : ClassId
  refresh : Bool
  deriving DecidableEq, Repr

/-- The Class Cache (R25). `retryOwed` is the model's own: an event of R33 has been taken in the operation under way and
the wait-list retry it starts has not run yet. It is clear between commands. -/
structure ClassCache where
  entries : PerEntry Entry
  wait : List Waiter
  fetchLimit : Nat
  retryOwed : Bool
  deriving DecidableEq, Repr

/-! ### Carrier Table (chapter 3) -/

/-- The last PURGE report for a carrier (R45). -/
inductive Purge where
  | unconfirmed | ok | lost
  deriving DecidableEq, Repr

/-- A carrier entry (R45). The carrier record of a CLOSING entry is formed from its counts, which no longer change (R138). -/
structure CarrierEntry where
  id : CarrierId
  closing : Bool
  purge : Purge
  released : Bool
  assigned : Nat
  live : Nat
  good : Nat
  reject : Nat
  abort : Nat
  fault : Nat
  notStarted : Nat
  deriving DecidableEq, Repr

/-- One joint of a carrier given to one head (00_scope.md 6, R46). -/
structure Assignment where
  carrier : CarrierId
  joint : Byte
  classId : ClassId
  refresh : Bool
  deriving DecidableEq, Repr

/-- The assignment in a head's current slot, promoted or waiting (R48). -/
structure Current where
  asg : Assignment
  promoted : Bool
  deriving DecidableEq, Repr

/-- The five start requirements (R50). -/
structure Requirements where
  bound : Bool
  purge : Bool
  released : Bool
  interlock : Bool
  settle : Bool
  deriving DecidableEq, Repr

/-! ### Records (chapter 8) -/

/-- The fifteen outcomes of a started cycle (chapter 4, section 4.5). -/
inductive CycleOutcome where
  | good
  | rampTimeout | exitLow | exitHigh | shortWetting | feedTimeout | coolTimeout | overheat | purgeLost
  | halted | interlock
  | sensorLost | driveFault | badStep | profileRange
  deriving DecidableEq, Repr

/-- The four classes of outcome (R59). -/
inductive OutcomeClass where
  | good | reject | abort | fault
  deriving DecidableEq, Repr

/-- A joint record (R137). -/
structure JointRecord where
  head : Head
  carrier : CarrierId
  joint : Byte
  classId : ClassId
  outcome : CycleOutcome
  endAddr : Nat
  endCode : Fin 16
  residual : Nat
  peak : Option Nat
  wet : Nat
  energy : Nat
  missed : Nat
  overruns : Nat
  deriving DecidableEq, Repr

/-- A carrier record (R138). -/
structure CarrierRecord where
  id : CarrierId
  assigned : Nat
  good : Nat
  reject : Nat
  abort : Nat
  fault : Nat
  notStarted : Nat
  deriving DecidableEq, Repr

/-- A record of the Record Queue (R139). -/
inductive Record where
  | joint (r : JointRecord)
  | carrier (r : CarrierRecord)
  deriving DecidableEq, Repr

/-! ### Head Context Store (chapter 4) -/

/-- The six head states (section 4.3). -/
inductive HeadState where
  | disabled | idle | arming | heating | held | faulted
  deriving DecidableEq, Repr

/-- The fault causes (R79). -/
inductive FaultCause where
  | sensorLost | driveFault | badStep | profileRange | classUnavailable
  deriving DecidableEq, Repr

/-- The prefetch slot (R6). -/
inductive Prefetch where
  | empty
  | word (w : StepWord)
  | rangeError
  deriving DecidableEq, Repr

/-- The binding of a head: cache entry and variant (R26). -/
structure Binding where
  entry : EntryIx
  variant : Nat
  deriving DecidableEq, Repr

/-- An entry of a head's neighbour list (R64). -/
structure Neighbour where
  head : Head
  coeff : Nat
  deriving DecidableEq, Repr

/-- A head configuration with its values after device reset (R64). -/
structure HeadConfig where
  enable : Bool := false
  sensor : Byte := 0
  drive : Byte := 0
  rating : Nat := 0
  neighbours : List Neighbour := []
  staleness : Nat := 20
  deriving DecidableEq, Repr

/-- A head context with its values after device reset (R66). Cache-wait membership is read from the cache-wait list.
A timer is `none` when it is stopped or idle and holds the ms remaining otherwise; a mark holds a time of the time base. -/
structure HeadCtx where
  state : HeadState := .disabled
  current : Option Current := none
  next : Option Assignment := none
  binding : Option Binding := none
  reqs : Option Requirements := none
  stepAddr : Nat := 0
  step : Option StepWord := none
  prefetch : Prefetch := .empty
  stepClock : Nat := 0
  stepTimer : Option Nat := none
  feedBaseline : Option Byte := none
  feedOwed : Bool := false
  tStart : Option Nat := none
  lastTemp : Option Nat := none
  iAcc : Nat := 0
  limited : Bool := false
  peak : Option Nat := none
  wet : Nat := 0
  energy : Nat := 0
  missed : Nat := 0
  overruns : Nat := 0
  sampleMark : Option Nat := none
  dstatMark : Option Nat := none
  settle : Option Nat := none
  cause : Option FaultCause := none
  heldRecord : Option JointRecord := none
  deriving DecidableEq, Repr

/-! ### Sample Intake (chapter 5) -/

/-- A sample in a pending slot (R90). -/
structure PendingSample where
  seq : Byte
  temp : Nat
  deriving DecidableEq, Repr

/-- The intake state of one head with its values after device reset (R90). -/
structure Intake where
  slot : Option PendingSample := none
  lastSeq : Option Byte := none
  staleTimer : Option Nat := none
  lastFeed : Option Byte := none
  deriving DecidableEq, Repr

/-! ### Grant Arbiter (chapter 7) -/

/-- A cap and the claimant that placed it; they are placed and removed together (R120, R126). -/
structure Cap where
  limit : Nat
  claimant : Head
  deriving DecidableEq, Repr

/-- A row of the power share table with its values after device reset (R120). -/
structure Row where
  demand : Nat := 0
  grant : Nat := 0
  tier : Option Tier := none
  cap : Option Cap := none
  deriving DecidableEq, Repr

/-! ### Ring Port (chapter 9) -/

/-- The source code of a DRIVE frame (R124, R134). -/
inductive DriveSource where
  | control | headroom | capped | budgetCut | stop
  deriving DecidableEq, Repr

/-- A DRIVE frame in a drive slot (R134). Activity `none` is OFF; the feed-request flag is set exactly where a feed
length is present. -/
structure DriveFrame where
  dest : Byte
  head : Head
  grant : Nat
  activity : Option Kind
  source : DriveSource
  feedLen : Option Nat
  cancel : Bool
  deriving DecidableEq, Repr

/-- The two sources between which ring-out alternates (R151, R159). -/
inductive RingSource where
  | drive | forward
  deriving DecidableEq, Repr

/-- The four counters of trouble (R165). -/
structure Counters where
  crc : Nat := 0
  overflow : Nat := 0
  dropped : Nat := 0
  foreign : Nat := 0
  deriving DecidableEq, Repr

/-- The Ring Port (R151). `drive` lists the occupied drive slots in the order they were filled. `wire` is the frame in
transmission. `reserved` is set while a request is taken: one place of the general queue is reserved for its reply (R160). -/
structure RingPort where
  own : Byte
  cc : Byte
  forward : List (List Byte)
  drive : List DriveFrame
  general : List Frame
  reserved : Bool
  wire : Option (List Byte)
  lastSent : RingSource
  counters : Counters
  deriving DecidableEq, Repr

/-! ### Notice Unit (chapter 10) -/

/-- One flag for each of the four causes (R168). -/
structure Causes where
  records : Bool := false
  fault : Bool := false
  claim : Bool := false
  ring : Bool := false
  deriving DecidableEq, Repr

/-- The Notice Unit (R168). `reported` is the model's own: the causes whose owning blocks have reported in the operation
under way (R169, R170). It is clear between commands. -/
structure Notices where
  detected : Causes := {}
  enables : Causes := {}
  pending : Causes := {}
  reported : Causes := {}
  deriving DecidableEq, Repr

/-! ### The part -/

/-- The levels last seen on the input pins ILK (high is `true`) and ADDR0 to ADDR7 (00_scope.md 7). -/
structure Pins where
  ilk : Bool
  strap : Byte
  deriving DecidableEq, Repr

/-- The state of the part. `pending` is the queue of waiting commands, the next to be taken first. -/
structure State where
  pending : List Instr
  now : Nat
  resetHeld : Bool
  pins : Pins
  store : StepStore
  cache : ClassCache
  carriers : List CarrierEntry
  interlock : Bool
  config : PerHead HeadConfig
  ctx : PerHead HeadCtx
  intake : PerHead Intake
  minStrength : Nat
  pointer : Head
  budget : Nat
  share : PerHead Row
  queue : List Record
  ring : RingPort
  notices : Notices
  deriving DecidableEq, Repr

/-- Why the part stops. -/
inductive Fault where
  /-- Raised by UNKNOWN_REQUEST alone, for a term `Instr.wellFormed` refuses: its payload begins with an assigned
  request code, so it spells another row of the table. Safe: no frame reads as such a term (`requestOf`). -/
  | spellsAnotherRow
  deriving DecidableEq, Repr

/-- Why a command is given no meaning. -/
inductive Refusal where
  /-- Raised by no command: every row of the table has its meaning. Safe. -/
  | notModelled (mnemonic : String)
  deriving DecidableEq, Repr

/-- The outcome of a command. -/
abbrev Result := Host.Outcome State Fault Refusal

/-- The entries of the Class Cache after either reset: INVALID, entry n at recency position n (R25). -/
def Entry.atReset (e : EntryIx) : Entry := { body := .invalid, users := 0, recency := e.val }

/-- The part right after device reset has ended: every element at its [POR] value (R1, R25, R45, R64, R66, R90, R120,
R139, R151, R168). The pins are taken as low (log entry 1), so that the address is 1 (R152) and the interlock open. -/
def State.reset : State where
  pending := []
  now := 0
  resetHeld := false
  pins := { ilk := false, strap := 0 }
  store := []
  cache := { entries := Vector.ofFn Entry.atReset, wait := [], fetchLimit := 100, retryOwed := false }
  carriers := []
  interlock := false
  config := Vector.replicate 16 {}
  ctx := Vector.replicate 16 {}
  intake := Vector.replicate 16 {}
  minStrength := 32
  pointer := 15
  budget := 0
  share := Vector.replicate 16 {}
  queue := []
  ring := { own := 1, cc := 0, forward := [], drive := [], general := [], reserved := false, wire := none,
            lastSent := .forward, counters := {} }
  notices := {}

end Sys2Proof.Machine
end

