-- ==== Sys2Proof/Machine/Ops.lean ====
section
/-! DEFINITION. The named operations every block is written in: reading and updating one head's or one entry's part of
the state, the Step Store as a memory, the ring counters and the places of the general queue. -/

namespace Sys2Proof.Machine

/-- The heads in ascending number. -/
def allHeads : List Head := [0, 1, 2, 3, 4, 5, 6, 7, 8, 9, 10, 11, 12, 13, 14, 15]

/-- The cache entries in ascending number. -/
def allEntries : List EntryIx := [0, 1, 2, 3, 4, 5, 6, 7]

/-! ### One head's part of the state -/

/-- The context of a head. -/
def State.ctxAt (s : State) (h : Head) : HeadCtx := s.ctx[h.val]

/-- Changes the context of a head. -/
def State.modCtx (s : State) (h : Head) (f : HeadCtx → HeadCtx) : State :=
  { s with ctx := s.ctx.set h.val (f (s.ctxAt h)) }

/-- Changes the context of every head, each from its own number and context. -/
def State.mapCtx (s : State) (f : Head → HeadCtx → HeadCtx) : State :=
  { s with ctx := Vector.ofFn fun h => f h (s.ctxAt h) }

/-- The configuration of a head. -/
def State.configAt (s : State) (h : Head) : HeadConfig := s.config[h.val]

/-- Writes the configuration of a head. -/
def State.setConfig (s : State) (h : Head) (c : HeadConfig) : State :=
  { s with config := s.config.set h.val c }

/-- The intake state of a head. -/
def State.intakeAt (s : State) (h : Head) : Intake := s.intake[h.val]

/-- Changes the intake state of a head. -/
def State.modIntake (s : State) (h : Head) (f : Intake → Intake) : State :=
  { s with intake := s.intake.set h.val (f (s.intakeAt h)) }

/-- The share table row of a head. -/
def State.rowAt (s : State) (h : Head) : Row := s.share[h.val]

/-- Changes the share table row of a head. -/
def State.modRow (s : State) (h : Head) (f : Row → Row) : State :=
  { s with share := s.share.set h.val (f (s.rowAt h)) }

/-! ### One block's part of the state -/

/-- Changes the Class Cache. -/
def State.modCache (s : State) (f : ClassCache → ClassCache) : State := { s with cache := f s.cache }

/-- A cache entry. -/
def State.entryAt (s : State) (e : EntryIx) : Entry := s.cache.entries[e.val]

/-- Changes a cache entry. -/
def State.modEntry (s : State) (e : EntryIx) (f : Entry → Entry) : State :=
  s.modCache fun c => { c with entries := c.entries.set e.val (f (s.entryAt e)) }

/-- Changes the Ring Port. -/
def State.modRing (s : State) (f : RingPort → RingPort) : State := { s with ring := f s.ring }

/-- Changes the Notice Unit. -/
def State.modNotices (s : State) (f : Notices → Notices) : State := { s with notices := f s.notices }

/-- Changes the entries of the Carrier Table that hold a carrier id. -/
def State.modCarrier (s : State) (id : CarrierId) (f : CarrierEntry → CarrierEntry) : State :=
  { s with carriers := s.carriers.map fun c => if c.id = id then f c else c }

/-- The entry of the Carrier Table that holds a carrier id. -/
def State.carrierAt (s : State) (id : CarrierId) : Option CarrierEntry := s.carriers.find? fun c => c.id = id

/-! ### The Step Store as a memory (R1) -/

/-- The word at an address; an address not listed reads the zero word. -/
def StepStore.read (m : StepStore) (a : Nat) : StepWord :=
  match m with
  | [] => {}
  | (b, w) :: m => if a = b then w else StepStore.read m a

/-- Writes the word at an address and keeps the canonical form: the zero word is not listed. -/
def StepStore.write (m : StepStore) (a : Nat) (w : StepWord) : StepStore :=
  match m with
  | [] => if w = {} then [] else [(a, w)]
  | (b, v) :: m =>
    if a < b then (if w = {} then (b, v) :: m else (a, w) :: (b, v) :: m)
    else if a = b then (if w = {} then m else (a, w) :: m)
    else (b, v) :: StepStore.write m a w

/-- Writes consecutive words from an address on. -/
def StepStore.writeMany (m : StepStore) (a : Nat) : List StepWord → StepStore
  | [] => m
  | w :: ws => StepStore.writeMany (m.write a w) (a + 1) ws

/-- The words at `n` consecutive addresses. -/
def StepStore.readMany (m : StepStore) (a : Nat) : Nat → List StepWord
  | 0 => []
  | n + 1 => m.read a :: StepStore.readMany m (a + 1) n

/-- The canonical form: addresses strictly rising, no zero word listed. -/
def StepStore.wf : StepStore → Bool
  | [] => true
  | (a, w) :: m => decide (w ≠ {}) && m.all (fun p => decide (a < p.1)) && StepStore.wf m

/-! ### Step words (R2, R3, R13) -/

/-- The kind a kind code names; every other code is invalid (R2). -/
def kindOf (code : Fin 16) : Option Kind :=
  match code.val with
  | 1 => some .ramp
  | 2 => some .soak
  | 3 => some .hold
  | 4 => some .feed
  | 5 => some .cool
  | _ => none

/-- The kind of a step word. -/
def StepWord.kind? (w : StepWord) : Option Kind := kindOf w.code

/-- The step timer a step or segment starts with: the time limit of a RAMP, FEED or COOL and the dwell of a SOAK or
HOLD; none where it is 0 (R4, R18). -/
def StepWord.timer (w : StepWord) : Option Nat :=
  let t := match w.kind? with
    | some .soak | some .hold => w.param
    | _ => w.limit
  if t = 0 then none else some t

/-- A SOAK or HOLD word with a dwell of 0 (R18). -/
def StepWord.zeroDwell (w : StepWord) : Bool :=
  (w.kind? = some .soak || w.kind? = some .hold) && w.param = 0

/-- The parameter clamp of R3, which depends on the kind of the word. -/
def clampParam (w : StepWord) : Nat :=
  match w.kind? with
  | some .ramp => if w.param = 0 then 1 else min w.param 10000
  | some .soak | some .hold => min w.param 60000
  | _ => w.param

/-- The clamps of R3. -/
def clampStep (w : StepWord) : StepWord :=
  { w with target := min w.target 16000, window := min w.window 1000, param := clampParam w,
           ceiling := min w.ceiling 2500, base := min w.base 2500 }

/-! ### Class page ranges (R5, R6, R23) -/

/-- An address lies inside a class page range. Address 1024 lies outside every range (R6). -/
def ClassDesc.inRange (d : ClassDesc) (a : Nat) : Bool :=
  16 * d.firstPage ≤ a && a < 16 * (d.firstPage + d.pageCount) && a < Config.stepWords

/-! ### Ring counters and the general queue (R158, R160, R165) -/

/-- A saturating count. -/
def bump (n : Nat) : Nat := min (n + 1) Config.countLimit

/-- Raises one ring counter; a rise below its limit is reported as a RING event (R165, R170). -/
def State.raise (s : State) (get : Counters → Nat) (set : Counters → Nat → Counters) : State :=
  let n := get s.ring.counters
  let s1 := s.modRing fun r => { r with counters := set r.counters (bump n) }
  if n < Config.countLimit then s1.modNotices fun u => { u with reported := { u.reported with ring := true } } else s1

/-- A frame that fails R153. -/
def State.raiseCrc (s : State) : State := s.raise Counters.crc fun c n => { c with crc := n }

/-- A frame offered to a full forward buffer (R155). -/
def State.raiseOverflow (s : State) : State := s.raise Counters.overflow fun c n => { c with overflow := n }

/-- A request that finds no free place in the general queue (R160). -/
def State.raiseDropped (s : State) : State := s.raise Counters.dropped fun c n => { c with dropped := n }

/-- A foreign frame (R156, R165). -/
def State.raiseForeign (s : State) : State := s.raise Counters.foreign fun c n => { c with foreign := n }

/-- A place of the general queue is free; a reserved place counts as occupied (R158). -/
def RingPort.hasPlace (r : RingPort) : Bool := r.general.length + r.reserved.toNat < Config.generalCapacity

/-- The cell controller can be sent a frame now: its address is set and a place is free (R158). -/
def State.ccReachable (s : State) : Bool := s.ring.cc != 0 && s.ring.hasPlace

/-- Places a frame at the tail of the general queue. -/
def State.placeGeneral (s : State) (f : Frame) : State :=
  s.modRing fun r => { r with general := r.general ++ [f] }

/-- A frame the part forms for the cell controller, with its own address as source and tag 0 (R160, R172). -/
def State.ccFrame (s : State) (kind : Byte) (payload : List Byte) : Frame :=
  { dest := s.ring.cc, src := s.ring.own, kind, tag := 0, payload }

/-- Device reset is not in force: the part takes events. While it holds every block stays at its [POR] values (R88). -/
def State.live (s : State) (f : State → State) : State := if s.resetHeld then s else f s

/-- A command that answers a next state. -/
def takes (f : State → State) (s : State) : Result := .next (s.live f)

end Sys2Proof.Machine
end

