-- ==== Sys2Proof/Machine/Operands.lean ====
section
/-! DEFINITION. The layouts of 09_station_ring.md section 9.11 (R167): reading the payloads of frames the part takes and
writing the payloads of frames it sends. A field present only under a condition occupies its bytes always and is sent as
0 when absent. -/

namespace Sys2Proof.Machine

/-! ### Codes (section 9.11) -/

/-- Status codes, 00h to 0Dh in the order of the table in R161. -/
inductive Status where
  | ok | busy | locked | range | length | unknownRequest | unknownCarrier | duplicate | tableFull | slotFull | inUse
  | overlapInUse | notEnabled | notFaulted
  deriving DecidableEq, Repr

/-- The code of a status. -/
def statusCode : Status → Nat
  | .ok => 0x00
  | .busy => 0x01
  | .locked => 0x02
  | .range => 0x03
  | .length => 0x04
  | .unknownRequest => 0x05
  | .unknownCarrier => 0x06
  | .duplicate => 0x07
  | .tableFull => 0x08
  | .slotFull => 0x09
  | .inUse => 0x0A
  | .overlapInUse => 0x0B
  | .notEnabled => 0x0C
  | .notFaulted => 0x0D

/-- Halt codes of R83. -/
inductive HaltCode where
  | recordHeld | haltedActive | haltedArming | nothingToHalt
  deriving DecidableEq, Repr

/-- The code of a halt code. -/
def haltCode : HaltCode → Nat
  | .recordHeld => 0x00
  | .haltedActive => 0x01
  | .haltedArming => 0x02
  | .nothingToHalt => 0x03

/-- The class of an outcome (R59). -/
def CycleOutcome.cls : CycleOutcome → OutcomeClass
  | .good => .good
  | .rampTimeout | .exitLow | .exitHigh | .shortWetting | .feedTimeout | .coolTimeout | .overheat | .purgeLost => .reject
  | .halted | .interlock => .abort
  | .sensorLost | .driveFault | .badStep | .profileRange => .fault

/-- The code of an outcome; its high four bits give the class. -/
def outcomeCode : CycleOutcome → Nat
  | .good => 0x00
  | .rampTimeout => 0x10
  | .exitLow => 0x11
  | .exitHigh => 0x12
  | .shortWetting => 0x13
  | .feedTimeout => 0x14
  | .coolTimeout => 0x15
  | .overheat => 0x16
  | .purgeLost => 0x17
  | .halted => 0x20
  | .interlock => 0x21
  | .sensorLost => 0x30
  | .driveFault => 0x31
  | .badStep => 0x32
  | .profileRange => 0x33

/-- The fault cause an outcome of class FAULT is (R70). -/
def causeOf : CycleOutcome → Option FaultCause
  | .sensorLost => some .sensorLost
  | .driveFault => some .driveFault
  | .badStep => some .badStep
  | .profileRange => some .profileRange
  | _ => none

/-- The code of a fault cause; 00h for none. -/
def causeCode : Option FaultCause → Nat
  | none => 0x00
  | some .sensorLost => 0x30
  | some .driveFault => 0x31
  | some .badStep => 0x32
  | some .profileRange => 0x33
  | some .classUnavailable => 0x34

/-- The code of a head state. -/
def headStateCode : HeadState → Nat
  | .disabled => 0x00
  | .idle => 0x01
  | .arming => 0x02
  | .heating => 0x03
  | .held => 0x04
  | .faulted => 0x05

/-- The code of a cache entry's state. -/
def entryCode : EntryBody → Nat
  | .invalid => 0x00
  | .fetching _ _ => 0x01
  | .resident _ _ => 0x02

/-- The code of a step kind, which is also the activity code of a DRIVE frame. -/
def kindCode : Kind → Nat
  | .ramp => 0x01
  | .soak => 0x02
  | .hold => 0x03
  | .feed => 0x04
  | .cool => 0x05

/-- The code of an activity; `none` is OFF. -/
def activityCode : Option Kind → Nat
  | none => 0x00
  | some k => kindCode k

/-- The source code of a DRIVE frame. -/
def sourceCode : DriveSource → Nat
  | .control => 0x00
  | .headroom => 0x01
  | .capped => 0x02
  | .budgetCut => 0x03
  | .stop => 0x04

/-- The code of a retention. -/
def retentionCode : Retention → Nat
  | .low => 0x00
  | .medium => 0x01
  | .high => 0x02

/-- The retention a code names (R24). -/
def retentionOf (n : Nat) : Option Retention :=
  match n with
  | 0x00 => some .low
  | 0x01 => some .medium
  | 0x02 => some .high
  | _ => none

/-- A set of causes as a byte: bit 0 RECORDS, bit 1 FAULT, bit 2 CLAIM, bit 3 RING. -/
def causeBits (c : Causes) : List Byte := flagsByte [c.records, c.fault, c.claim, c.ring]

/-- A set of causes read from the byte at an offset. -/
def causesAt (p : List Byte) (i : Nat) : Causes :=
  { records := flagAt p i 0, fault := flagAt p i 1, claim := flagAt p i 2, ring := flagAt p i 3 }

/-! ### Step words (14 bytes) -/

/-- The step word at an offset. -/
def stepWordAt (p : List Byte) (i : Nat) : StepWord :=
  { code := Fin.ofNat 16 (u8At p i), tier := Fin.ofNat 4 (u8At p i / 16),
    next := flagAt p (i + 1) 0, cont := flagAt p (i + 1) 1, wet := flagAt p (i + 1) 2,
    target := u16At p (i + 2), window := u16At p (i + 4), param := u16At p (i + 6), limit := u16At p (i + 8),
    ceiling := u16At p (i + 10), base := u16At p (i + 12) }

/-- The bytes of a step word. -/
def stepWordBytes (w : StepWord) : List Byte :=
  be8 (w.code.val + 16 * w.tier.val) ++ flagsByte [w.next, w.cont, w.wet] ++ be16 w.target ++ be16 w.window
    ++ be16 w.param ++ be16 w.limit ++ be16 w.ceiling ++ be16 w.base

/-- `n` step words from an offset on. -/
def stepWordsAt (p : List Byte) (i : Nat) : Nat → List StepWord
  | 0 => []
  | n + 1 => stepWordAt p i :: stepWordsAt p (i + 14) n

/-! ### Class descriptors (21 + 2t bytes) -/

/-- `n` trims from an offset on. -/
def trimsAt (p : List Byte) (i : Nat) : Nat → List Int
  | 0 => []
  | n + 1 => i16At p i :: trimsAt p (i + 2) n

/-- The bytes of a descriptor up to its trims, with the trim count. -/
def descHeadBytes (d : ClassDesc) : List Byte :=
  be16 d.classId.toNat ++ be8 d.span.val ++ be8 (retentionCode d.retention) ++ be16 d.start ++ be8 d.firstPage
    ++ be8 d.pageCount ++ be16 d.liquidus ++ be16 d.maxTemp ++ be16 d.minWet ++ be16 d.kp ++ be16 d.ki
    ++ be16 d.settle ++ be8 d.trims.length

/-- The bytes of a descriptor in the CLASSLOAD layout. -/
def descBytes (d : ClassDesc) : List Byte := descHeadBytes d ++ d.trims.flatMap be16s

/-- Fills up with zero bytes to a length. -/
def padTo (n : Nat) (bs : List Byte) : List Byte := bs ++ List.replicate (n - bs.length) 0

/-! ### Records -/

/-- The bytes of an optional two-byte field. -/
def optBytes16 (o : Option Nat) : List Byte := be16 (o.getD 0)

/-- A joint record (29 bytes). -/
def jointBytes (r : JointRecord) : List Byte :=
  be8 r.head.val ++ be32 r.carrier.toNat ++ [r.joint] ++ be16 r.classId.toNat ++ be8 (outcomeCode r.outcome)
    ++ be16 r.endAddr ++ be8 r.endCode.val ++ be16 r.residual ++ flagsByte [r.peak.isSome] ++ optBytes16 r.peak
    ++ be32 r.wet ++ be32 r.energy ++ be16 r.missed ++ be16 r.overruns

/-- A carrier record (10 bytes). -/
def carrierBytes (r : CarrierRecord) : List Byte :=
  be32 r.id.toNat ++ be8 r.assigned ++ be8 r.good ++ be8 r.reject ++ be8 r.abort ++ be8 r.fault ++ be8 r.notStarted

/-- A record in a READ_RECORDS reply, preceded by its type byte. -/
def recordBytes : Record → List Byte
  | .joint r => be8 0x01 ++ jointBytes r
  | .carrier r => be8 0x02 ++ carrierBytes r

/-! ### Head configurations -/

/-- A neighbour entry (3 bytes). -/
def neighbourBytes (n : Neighbour) : List Byte := be8 n.head.val ++ be16 n.coeff

/-- A configuration in the form of the SET_HEAD payload from its offset 1. -/
def configBytes (h : Head) (c : HeadConfig) : List Byte :=
  be8 h.val ++ flagsByte [c.enable] ++ [c.sensor, c.drive] ++ be16 c.rating ++ be16 c.staleness
    ++ be8 c.neighbours.length ++ c.neighbours.flatMap neighbourBytes

/-! ### READ_HEAD items (R86) -/

/-- An assignment as 8 bytes: carrier id, joint index, class id, refresh flag. -/
def assignmentBytes (a : Option Assignment) : List Byte :=
  match a with
  | none => List.replicate 8 0
  | some a => be32 a.carrier.toNat ++ [a.joint] ++ be16 a.classId.toNat ++ flagsByte [a.refresh]

/-- The requirements byte. -/
def reqsByte (r : Option Requirements) : List Byte :=
  match r with
  | none => be8 0
  | some r => flagsByte [r.bound, r.purge, r.released, r.interlock, r.settle]

/-- The prefetch slot: its contents code and its word. -/
def prefetchBytes : Prefetch → List Byte
  | .empty => be8 0x00 ++ List.replicate 14 0
  | .word w => be8 0x01 ++ stepWordBytes w
  | .rangeError => be8 0x02 ++ List.replicate 14 0

/-- The context part of a READ_HEAD reply, bytes 18 to 131. -/
def ctxBytes (c : HeadCtx) (waiting : Bool) : List Byte :=
  be8 (headStateCode c.state)
    ++ flagsByte [c.current.isSome, c.current.any Current.promoted, c.next.isSome, c.binding.isSome, waiting,
        c.reqs.isSome, c.step.isSome, c.stepTimer.isSome]
    ++ assignmentBytes (c.current.map Current.asg) ++ assignmentBytes c.next
    ++ be8 ((c.binding.map fun b => b.entry.val).getD 0) ++ be8 ((c.binding.map Binding.variant).getD 0)
    ++ reqsByte c.reqs
    ++ be16 c.stepAddr ++ ((c.step.map stepWordBytes).getD (List.replicate 14 0))
    ++ prefetchBytes c.prefetch
    ++ be32 c.stepClock ++ optBytes16 c.stepTimer
    ++ flagsByte [c.feedBaseline.isSome, c.feedOwed, c.tStart.isSome, c.lastTemp.isSome, c.limited, c.peak.isSome,
        c.settle.isSome, c.heldRecord.isSome]
    ++ [c.feedBaseline.getD 0] ++ optBytes16 c.tStart ++ optBytes16 c.lastTemp ++ be32 c.iAcc ++ optBytes16 c.peak
    ++ be32 c.wet ++ be32 c.energy ++ be16 c.missed ++ be16 c.overruns ++ optBytes16 c.settle
    ++ be8 (causeCode c.cause) ++ ((c.heldRecord.map jointBytes).getD (List.replicate 29 0))

/-- The share table row part of a READ_HEAD reply, bytes 132 to 140. -/
def rowBytes (r : Row) : List Byte :=
  be16 r.demand ++ be16 r.grant ++ be8 ((r.tier.map Fin.val).getD 0xFF) ++ flagsByte [r.cap.isSome]
    ++ be16 ((r.cap.map Cap.limit).getD 0) ++ be8 ((r.cap.map fun c => c.claimant.val).getD 0)

/-! ### DRIVE frames (8 bytes, R134) -/

/-- The payload of a DRIVE frame. -/
def DriveFrame.payload (f : DriveFrame) : List Byte :=
  be8 f.head.val ++ be16 f.grant ++ be8 (activityCode f.activity) ++ be8 (sourceCode f.source)
    ++ flagsByte [f.feedLen.isSome, f.cancel] ++ optBytes16 f.feedLen

/-- A DRIVE frame as ring-out sends it, with the part's own address as source and tag 0. -/
def DriveFrame.frame (own : Byte) (f : DriveFrame) : Frame :=
  { dest := f.dest, src := own, kind := 0x12, tag := 0, payload := f.payload }

end Sys2Proof.Machine
end

