-- ==== Sys2Proof/Machine/Flags.lean ====
section
/-! DEFINITION. The flags of the Notice Unit (chapter 10): the conditions, the report that ends every operation, the
ATTENTION frame, and the test of SET_NOTICES and SET_STATION. -/

namespace Sys2Proof.Machine

/-! ### Sets of causes -/

/-- Both sets. -/
def Causes.union (a b : Causes) : Causes :=
  { records := a.records || b.records, fault := a.fault || b.fault, claim := a.claim || b.claim, ring := a.ring || b.ring }

/-- The causes in both sets. -/
def Causes.inter (a b : Causes) : Causes :=
  { records := a.records && b.records, fault := a.fault && b.fault, claim := a.claim && b.claim, ring := a.ring && b.ring }

/-- The causes of the first set that are not in the second. -/
def Causes.diff (a b : Causes) : Causes :=
  { records := a.records && !b.records, fault := a.fault && !b.fault, claim := a.claim && !b.claim, ring := a.ring && !b.ring }

/-- Some cause is in the set. -/
def Causes.any (a : Causes) : Bool := a.records || a.fault || a.claim || a.ring

/-! ### Conditions and reports (R169, R170) -/

/-- The Record Queue holds at least one record. -/
def State.recordsPresent (s : State) : Bool := !s.queue.isEmpty

/-- At least one head is FAULTED. -/
def State.faultPresent (s : State) : Bool := allHeads.any fun h => (s.ctxAt h).state = .faulted

/-- At least one row of the power share table holds a cap. -/
def State.claimPresent (s : State) : Bool := allHeads.any fun h => (s.rowAt h).cap.isSome

/-- The conditions as the blocks report them. A rise of a counter is itself the RING event (R170). -/
def State.conditions (s : State) : Causes :=
  { records := s.recordsPresent, fault := s.faultPresent, claim := s.claimPresent, ring := true }

/-- The Record Queue reports (R169). -/
def State.reportRecords (s : State) : State :=
  s.modNotices fun n => { n with reported := { n.reported with records := true } }

/-- The Head Context Store reports (R169). -/
def State.reportFault (s : State) : State :=
  s.modNotices fun n => { n with reported := { n.reported with fault := true } }

/-- The Grant Arbiter reports (R169). -/
def State.reportClaim (s : State) : State :=
  s.modNotices fun n => { n with reported := { n.reported with claim := true } }

/-! ### ATTENTION (R171, R172) -/

/-- The causes pending after a frame is placed: the pending bit of every enabled cause the frame carries is cleared. -/
def Notices.pendingAfterFrame (n : Notices) : Causes := n.pending.diff (n.detected.inter n.enables)

/-- The ATTENTION frame formed from the flags as they stand (R172). -/
def State.attentionFrame (s : State) : Frame :=
  s.ccFrame 0x07 (causeBits s.notices.detected ++ causeBits s.notices.pendingAfterFrame)

/-- Offers one ATTENTION: it is placed where the cell controller address is set and a place is free, and the pending
bits of the enabled causes it carries are cleared; otherwise the causes of `lost` become pending (R171). -/
def State.offerAttention (s : State) (lost : Causes) : State :=
  if s.ccReachable then
    (s.placeGeneral s.attentionFrame).modNotices fun n => { n with pending := n.pendingAfterFrame }
  else s.modNotices fun n => { n with pending := n.pending.union lost }

/-- The report of an operation whose work is done: each reported condition is compared with its flag; a cause that went
absent loses its flag and pending bit; the onsets are announced by at most one ATTENTION (R169, R170, R171). -/
def State.report (s : State) : State :=
  let n := s.notices
  let cond := s.conditions
  let present := n.reported.inter cond
  let absent := n.reported.diff cond
  let onsets := present.diff n.detected
  let s1 := s.modNotices fun n =>
    { n with detected := (n.detected.union present).diff absent,
             pending := (n.pending.diff absent).union (onsets.diff n.enables),
             reported := {} }
  let announced := onsets.inter n.enables
  if announced.any then s1.offerAttention announced else s1

/-- The test of R173: at least one cause is pending, present and enabled, and the cell controller address is not 0. -/
def State.announceable (s : State) : Bool :=
  ((s.notices.pending.inter s.notices.detected).inter s.notices.enables).any && s.ring.cc != 0

/-- The later announcement of pending causes by SET_NOTICES and SET_STATION (R173). -/
def State.announcePending (s : State) : State := if s.announceable then s.offerAttention {} else s

end Sys2Proof.Machine
end

