-- ==== Sys2Proof/Machine/Grants.lean ====
section
/-! DEFINITION. The Grant Arbiter (chapter 7) and the drive slots it fills (R157): grants, claims, releases, budget cuts,
stops and the DRIVE frames they queue. -/

namespace Sys2Proof.Machine

/-! ### Drive slots (R135, R157) -/

/-- The feed length of a frame that replaces a waiting one (R135): a service or BUDGET_CUT frame carries the waiting
request on with the same feed length, also where it brings a request of its own (log entry 4); a STOP carries none. -/
def carriedFeed (waiting new : DriveFrame) : Option Nat :=
  if new.source = .stop then none else waiting.feedLen.or new.feedLen

/-- Places a DRIVE frame in its head's slot: the frame that waits there is replaced and the slot keeps its place in the
list; an empty slot joins the tail (R157). A STOP of a cycle that ends before its first service replaces a STOP that still
waits, and the feed cancel of the older one is lost with it, where R135 has a waiting STOP replaced by a service frame only
(the model's choice, log entry 31). -/
def placeIn : List DriveFrame → DriveFrame → List DriveFrame
  | [], f => [f]
  | g :: gs, f => if g.head = f.head then { f with feedLen := carriedFeed g f } :: gs else g :: placeIn gs f

/-- The Grant Arbiter queues a DRIVE frame (R134). -/
def State.placeDrive (s : State) (f : DriveFrame) : State :=
  s.modRing fun r => { r with drive := placeIn r.drive f }

/-- The kind of the head's running step or segment. -/
def State.runningKind (s : State) (h : Head) : Option Kind := (s.ctxAt h).step.bind StepWord.kind?

/-! ### Sums (R121, R123) -/

/-- The sum of the grants of all sixteen rows. -/
def State.grantSum (s : State) : Nat := (allHeads.map fun h => (s.rowAt h).grant).sum

/-- The sum of the grants of the fifteen other rows. -/
def State.otherGrants (s : State) (h : Head) : Nat :=
  ((allHeads.filter fun j => j ≠ h).map fun j => (s.rowAt j).grant).sum

/-- The headroom of a head: the budget less the grants of all other heads (R123). -/
def State.headroom (s : State) (h : Head) : Nat := s.budget - s.otherGrants h

/-! ### Release and stop (R128, R132, R133) -/

/-- A row after the release of the claims of head `h`. -/
def Row.released (h : Head) (r : Row) : Row :=
  if r.cap.any (fun c => c.claimant = h) then { r with cap := none } else r

/-- Releases the claims of head `h`: every row whose claimant is `h` loses its cap and its claimant (R128). -/
def State.releaseClaims (s : State) (h : Head) : State :=
  { s with share := Vector.ofFn fun j => (s.rowAt j).released h }.reportClaim

/-- The STOP frame of a head (R132, R133). -/
def State.stopFrame (s : State) (h : Head) (cancel : Bool) : DriveFrame :=
  { dest := (s.configAt h).drive, head := h, grant := 0, activity := none, source := .stop, feedLen := none, cancel }

/-- The stop of head `h`: its claims are released, its row is emptied and its STOP frame is queued (R132). -/
def State.stop (s : State) (h : Head) (cancel : Bool) : State :=
  ((s.releaseClaims h).modRow h fun _ => {}).placeDrive (s.stopFrame h cancel)

/-- The tier of the running step or segment is written to the head's row; nothing else changes (R122). -/
def State.writeTier (s : State) (h : Head) (t : Tier) : State := s.modRow h fun r => { r with tier := some t }

/-! ### Claims (R125, R126) -/

/-- The rows a head at tier `t` may claim from, in order: tier 3 first, then 2, then 1; within one tier the highest head
number first; grant above 0 and tier greater than `t` (R125). A head that has chained into COOL holds the grant of its step before until
its next service (R122); R125 and R13 call a COOL head no donor, by its grant of 0. The model follows the two conditions, so
that such a head is a donor until it is served (the model's choice, log entry 30). -/
def State.donors (s : State) (t : Tier) : List Head :=
  [(3 : Tier), 2, 1].flatMap fun d =>
    allHeads.reverse.filter fun j => (s.rowAt j).tier = some d && t < d && 0 < (s.rowAt j).grant

/-- A donor's row when amount `a` of its grant is claimed by head `h` (R126). -/
def Row.claimed (h : Head) (a : Nat) (r : Row) : Row :=
  { r with cap := some { limit := (r.cap.map fun c => min c.limit (r.grant - a)).getD (r.grant - a), claimant := h } }

/-- The walk over the donors with the shortfall left (R126). -/
def claimWalk (h : Head) : List Head → Nat → State → State
  | [], _, s => s
  | j :: js, short, s =>
    if short = 0 then s
    else
      let a := min (s.rowAt j).grant short
      claimWalk h js (short - a) (s.modRow j (Row.claimed h a))

/-- Head `h` claims a shortfall from its donors; a head of no tier, and a shortfall of 0, place no claim (R125). -/
def State.claim (s : State) (h : Head) (short : Nat) : State :=
  match (s.rowAt h).tier with
  | some t => if short = 0 then s else (claimWalk h (s.donors t) short s).reportClaim
  | none => s

/-! ### Grants (R123, R124) -/

/-- The least of the demand, the headroom and a cap that is present (R123). -/
def grantOf (demand room : Nat) (cap : Option Cap) : Nat :=
  (cap.map fun c => min (min demand room) c.limit).getD (min demand room)

/-- The want of a head: its demand, held to its own cap (R125). -/
def wantOf (demand : Nat) (cap : Option Cap) : Nat := (cap.map fun c => min demand c.limit).getD demand

/-- The source code of a service frame (R124). -/
def sourceOf (demand room grant : Nat) (cap : Option Cap) : DriveSource :=
  if grant = demand then .control
  else if cap.any (fun c => c.limit ≤ room) then .capped
  else .headroom

/-- The grant of a head for a demand handed in at its service. -/
def State.grantFor (s : State) (h : Head) (demand : Nat) : Nat :=
  grantOf demand (s.headroom h) (s.rowAt h).cap

/-- A service hands in a demand: it is written with the grant, claims are placed where the grant falls short of the
want, and the head's DRIVE frame is queued (R123, R125, R134). -/
def State.grantService (s : State) (h : Head) (demand : Nat) (activity : Option Kind) (feed : Option Nat) : State :=
  let cap := (s.rowAt h).cap
  let g := s.grantFor h demand
  ((s.modRow h fun r => { r with demand, grant := g }).claim h (wantOf demand cap - g)).placeDrive
    { dest := (s.configAt h).drive, head := h, grant := g, activity, source := sourceOf demand (s.headroom h) g cap,
      feedLen := feed, cancel := false }

/-! ### Budget (R121, R130) -/

/-- A grant scaled by a cut from the sum of all grants to the new budget. -/
def scaledGrant (budget sum grant : Nat) : Nat := grant * budget / sum

/-- The heads whose grant a cut changes, ascending. -/
def State.cutHeads (s : State) (budget : Nat) : List Head :=
  allHeads.filter fun h => scaledGrant budget s.grantSum (s.rowAt h).grant ≠ (s.rowAt h).grant

/-- The BUDGET_CUT frame of a head, from its scaled row. -/
def State.cutFrame (s : State) (h : Head) : DriveFrame :=
  { dest := (s.configAt h).drive, head := h, grant := (s.rowAt h).grant, activity := s.runningKind h,
    source := .budgetCut, feedLen := none, cancel := false }

/-- Queues the BUDGET_CUT frames of the heads named, in order. -/
def placeCutFrames : List Head → State → State
  | [], s => s
  | h :: hs, s => placeCutFrames hs (s.placeDrive (s.cutFrame h))

/-- Every grant scaled from its standing value, all against the same sum (R130). -/
def State.scaleGrants (s : State) (budget : Nat) : State :=
  { s with share := Vector.ofFn fun h =>
      { s.rowAt h with grant := scaledGrant budget s.grantSum (s.rowAt h).grant } }

/-- The station budget is set; a budget below the sum of grants makes the cut (R121, R130). -/
def State.applyBudget (s : State) (budget : Nat) : State :=
  if budget < s.grantSum then
    placeCutFrames (s.cutHeads budget) { s.scaleGrants budget with budget }
  else { s with budget }

/-- The number of grants SET_BUDGET changes (R121). -/
def State.cutCount (s : State) (budget : Nat) : Nat :=
  if budget < s.grantSum then (s.cutHeads budget).length else 0

end Sys2Proof.Machine
end

