-- ==== Sys2Proof/Machine/Requests.lean ====
section
/-! DEFINITION. How a consumed frame is taken: the source check of R156, the acceptance of an answered frame and its
REPLY (R160), and the one report to the Notice Unit that ends the work (R169). -/

namespace Sys2Proof.Machine

/-- What the block that takes a request leaves: the state, the status and the reply items (offset 3 onward). -/
structure Answer where
  state : State
  status : Status
  items : List Byte

/-- A refusal with the status alone, which changes nothing but the reply (R161). -/
def Answer.refuse (s : State) (st : Status) : Answer := { state := s, status := st, items := [] }

/-- A taken request with its items. -/
def Answer.ok (s : State) (items : List Byte) : Answer := { state := s, status := .ok, items }

/-- The REPLY frame: to the source node of the request, with its tag, beginning with the answered kind, the request
code (00h for a kind other than REQUEST) and the status (R160, R167). -/
def replyFrame (own : Byte) (kind code : Nat) (src tag : Byte) (st : Status) (items : List Byte) : Frame :=
  { dest := src, src := own, kind := 0x02, tag, payload := be8 kind ++ be8 code ++ be8 (statusCode st) ++ items }

/-- The reply takes the place reserved for it (R160). -/
def State.placeReply (s : State) (f : Frame) : State :=
  s.modRing fun r => { r with reserved := false, general := r.general ++ [f] }

/-- A consumed frame whose source is 0 or 255 is discarded as a foreign frame (R156); any other is taken, and one report
ends the work. A frame from the part's own address is stripped at its arrival (R154) and no frame reaches this point with
it; a command that names that source is run as any other (the model's choice, log entry 22). -/
def consumed (src : Byte) (work : State → State) (s : State) : State :=
  if sendingNode src then work s else s.raiseForeign.report

/-- An answered frame: dropped and counted where the general queue has no free place; otherwise one place is reserved,
the request is taken whole by its block, the report follows, and the REPLY takes the reserved place (R160, R171). -/
def answered (kind code : Nat) (src tag : Byte) (work : State → Answer) (s : State) : State :=
  consumed src (fun s =>
    if s.ring.hasPlace then
      let a := work (s.modRing fun r => { r with reserved := true })
      a.state.report.placeReply (replyFrame s.ring.own kind code src tag a.status a.items)
    else s.raiseDropped.report) s

/-- A REQUEST frame with its payload, the request code at offset 0 included. -/
def request (code : Nat) (src tag : Byte) (body : List Byte) (work : List Byte → State → Answer) (s : State) : Result :=
  takes (answered 0x01 code src tag (work (BitVec.ofNat 8 code :: body))) s

/-- A frame that is not answered. -/
def unanswered (src : Byte) (work : State → State) (s : State) : Result :=
  takes (consumed src fun s => (work s).report) s

/-- An event that is no frame. -/
def event (work : State → State) (s : State) : Result := takes (fun s => (work s).report) s

end Sys2Proof.Machine
end

