-- ==== Sys2Proof/Machine/BudgetCommands.lean ====
section
/-! DEFINITION. SET_BUDGET with the budget cut (R121, R130). -/

namespace Sys2Proof.Machine

/-- SET_BUDGET at its block (R121). -/
def setBudgetWork (p : List Byte) (s : State) : Answer :=
  if p.length ≠ 3 then .refuse s .length
  else
    let b := min (u16At p 1) Config.budgetLimit
    .ok (s.applyBudget b) (be16 b ++ be8 (s.cutCount b))

/-- SET_BUDGET (R121). -/
def execSetBudget (src tag : Byte) (body : List Byte) (s : State) : Result :=
  request 0x03 src tag body setBudgetWork s

end Sys2Proof.Machine
end

