-- ==== Sys2Proof/Machine/Cache.lean ====
section
/-! DEFINITION. The Class Cache (chapter 2): tags and variants, recency, lookups, victims, binding and unbinding, the
wait-list retry, and the matching, filling and settling of a CLASSLOAD. -/

namespace Sys2Proof.Machine

/-! ### Tags, matching, recency (R26, R27) -/

/-- A class id with its low `span` bits cleared. -/
def clearLow (c : ClassId) (span : Fin 4) : ClassId := (c >>> span.val) <<< span.val

/-- The tag and span of an entry that is not INVALID. -/
def EntryBody.cover : EntryBody → Option (ClassId × Fin 4)
  | .invalid => none
  | .fetching tag _ => some (tag, 0)
  | .resident tag d => some (tag, d.span)

/-- A requested class id matches an entry (R26). -/
def EntryBody.matchesId (b : EntryBody) (c : ClassId) : Bool := b.cover.any fun p => clearLow c p.2 = p.1

/-- The ids covered by an entry and a block of ids share one: aligned blocks that overlap lie one within the other. -/
def EntryBody.overlaps (b : EntryBody) (tag : ClassId) (span : Fin 4) : Bool :=
  b.cover.any fun p => clearLow tag (max span p.2) = clearLow p.1 (max span p.2)

/-- The variant of a requested id within an entry (R26). -/
def variantOf (c tag : ClassId) : Nat := (c - tag).toNat

/-- The descriptor of a RESIDENT entry. -/
def EntryBody.desc? : EntryBody → Option ClassDesc
  | .resident _ d => some d
  | _ => none

/-- The entry is RESIDENT. -/
def EntryBody.isResident (b : EntryBody) : Bool := b.desc?.isSome

/-- The entry is INVALID. -/
def EntryBody.isInvalid (b : EntryBody) : Bool := b.cover.isNone

/-- Touches an entry: it moves to recency position 0 and every entry ahead of it moves back one (R27). -/
def State.touch (s : State) (e : EntryIx) : State :=
  let p := (s.entryAt e).recency
  s.modCache fun c => { c with entries := Vector.ofFn fun i : EntryIx =>
    let x := s.entryAt i
    if i = e then { x with recency := 0 } else if x.recency < p then { x with recency := x.recency + 1 } else x }

/-- An event of R33 has been taken. -/
def State.oweRetry (s : State) : State := s.modCache fun c => { c with retryOwed := true }

/-- An entry becomes INVALID with no users; it keeps its recency position (R27, R29, R35, R39, R42). -/
def State.invalidate (s : State) (e : EntryIx) : State :=
  (s.modEntry e fun x => { x with body := .invalid, users := 0 }).oweRetry

/-- The entry a class id matches; at most one does (R39). -/
def State.matchEntry (s : State) (c : ClassId) : Option EntryIx :=
  allEntries.find? fun e => (s.entryAt e).body.matchesId c

/-! ### Victims (R30) -/

/-- The rank of a RESIDENT entry with no users in the victim order: lowest retention first, then highest recency. -/
def Entry.victimRank (x : Entry) : Nat :=
  match x.body with
  | .resident _ d => if x.users = 0 then 1 + (2 - retentionCode d.retention) * 8 + min x.recency 7 else 0
  | _ => 0

/-- The entry of the highest rank above 0, the first such one. -/
def bestVictim (s : State) : List EntryIx → Option EntryIx
  | [] => none
  | e :: es =>
    match bestVictim s es with
    | none => if 0 < (s.entryAt e).victimRank then some e else none
    | some b => if (s.entryAt b).victimRank ≤ (s.entryAt e).victimRank then some e else some b

/-- The victim of a miss: the INVALID entry with the lowest index; if none, the RESIDENT entry with no users of the
lowest retention and, among equals, the highest recency position (R30). -/
def State.victim (s : State) : Option EntryIx :=
  match allEntries.find? fun e => (s.entryAt e).body.isInvalid with
  | some e => some e
  | none => bestVictim s allEntries

/-! ### Binding (R28 to R32) -/

/-- The head's binding takes an entry and a variant, the user count rises and the entry is touched (R28). -/
def State.bindTo (s : State) (h : Head) (e : EntryIx) (variant : Nat) : State :=
  ((s.modCtx h fun c => { c with binding := some { entry := e, variant } }).modEntry e
    fun x => { x with users := x.users + 1 }).touch e

/-- A CLASSFETCH is offered to the general queue; it is not placed where the cell controller address is 0 or the queue
is full (R31, R158). -/
def State.offerFetch (s : State) (c : ClassId) : State :=
  if s.ccReachable then s.placeGeneral (s.ccFrame 0x06 (be16 c.toNat)) else s

/-- A victim becomes FETCHING for the requested id, the head binds to it, the CLASSFETCH is issued and the fetch timer
starts at the current fetch limit (R30, R31). -/
def State.fetchInto (s : State) (h : Head) (c : ClassId) (v : EntryIx) : State :=
  ((s.modEntry v fun x => { x with body := .fetching c s.cache.fetchLimit, users := 0 }).bindTo h v 0).offerFetch c

/-- The outcome of a lookup that binds: the state, and whether the entry is RESIDENT. -/
structure Bound where
  state : State
  resident : Bool

/-- A miss that finds a victim; `none` where there is none (R30). -/
def State.bindMiss (s : State) (h : Head) (c : ClassId) : Option Bound :=
  s.victim.map fun v => { state := s.fetchInto h c v, resident := false }

/-- A full lookup (R28 to R30); `none` where it misses and no victim is found. -/
def State.tryBind (s : State) (h : Head) (c : ClassId) (refresh : Bool) : Option Bound :=
  match s.matchEntry c with
  | none => s.bindMiss h c
  | some e =>
    match (s.entryAt e).body with
    | .resident tag _ =>
      if refresh && (s.entryAt e).users = 0 then (s.invalidate e).bindMiss h c
      else some { state := s.bindTo h e (variantOf c tag), resident := true }
    | .fetching _ _ => some { state := s.bindTo h e 0, resident := false }
    | .invalid => s.bindMiss h c

/-- The bind request of a promotion: a lookup that finds no victim puts the head at the tail of the cache-wait list
(R28, R30, R32). -/
def State.bindRequest (s : State) (h : Head) (c : ClassId) (refresh : Bool) : Bound :=
  match s.tryBind h c refresh with
  | some b => b
  | none => { state := s.modCache fun k => { k with wait := k.wait ++ [{ head := h, classId := c, refresh }] },
              resident := false }

/-- The requirement "class bound and RESIDENT" of a head (R51). -/
def State.setBound (s : State) (h : Head) (b : Bool) : State :=
  s.modCtx h fun c => { c with reqs := c.reqs.map fun r => { r with bound := b } }

/-- The retry of R33 over the members of the list, oldest first; it stops at the first member that finds no victim. R33
leaves that member at the head of the list, while R32 has a head join the list at the tail when a rerun lookup finds no
victim: the model follows R33 (the model's choice, log entry 28). -/
def retryWaiters : List Waiter → State → State
  | [], s => s.modCache fun k => { k with wait := [] }
  | w :: ws, s =>
    match s.tryBind w.head w.classId w.refresh with
    | some b => retryWaiters ws (b.state.setBound w.head b.resident)
    | none => s.modCache fun k => { k with wait := w :: ws }

/-- The wait-list retry, run where an event of R33 calls for one. -/
def State.runRetry (s : State) : State :=
  if s.cache.retryOwed then
    (retryWaiters s.cache.wait s).modCache fun k => { k with retryOwed := false }
  else s

/-- The unbind of a head: the binding is removed and the user count of its entry falls by 1; a fall to 0 starts the
retry (R34). A head that is not bound makes none. -/
def State.unbind (s : State) (h : Head) : State :=
  match (s.ctxAt h).binding with
  | none => s
  | some b =>
    let s1 := (s.modCtx h fun c => { c with binding := none }).modEntry b.entry fun x => { x with users := x.users - 1 }
    if (s1.entryAt b.entry).users = 0 then s1.oweRetry else s1

/-- The head leaves the cache-wait list; the other members keep their order (R32). -/
def State.leaveWait (s : State) (h : Head) : State :=
  s.modCache fun k => { k with wait := k.wait.filter fun w => w.head ≠ h }

/-- The heads bound to an entry, ascending. -/
def State.boundHeads (s : State) (e : EntryIx) : List Head :=
  allHeads.filter fun h => (s.ctxAt h).binding.any fun b => b.entry = e

/-- The descriptor of the class a head is bound to, where its entry is RESIDENT. -/
def State.boundDesc (s : State) (h : Head) : Option ClassDesc :=
  (s.ctxAt h).binding.bind fun b => (s.entryAt b.entry).body.desc?

/-- The requested class id of a head's current assignment. -/
def State.requestedId (s : State) (h : Head) : ClassId := (((s.ctxAt h).current.map fun c => c.asg.classId)).getD 0

/-! ### CLASSLOAD (R24, R36 to R39) -/

/-- A clamp of a trim into −250 to +250 (R24). -/
def clampTrim (t : Int) : Int := max (-250) (min t 250)

/-- The descriptor in a CLASSLOAD payload, clamped by R24, for a span and a retention already checked. -/
def descAt (p : List Byte) (span : Fin 4) (ret : Retention) : ClassDesc :=
  { classId := id16At p 0, span, retention := ret, start := u16At p 4, firstPage := u8At p 6, pageCount := u8At p 7,
    liquidus := min (u16At p 8) 16000, maxTemp := min (u16At p 10) 16000, minWet := u16At p 12,
    kp := min (u16At p 14) 4095, ki := min (u16At p 16) 1023, settle := min (u16At p 18) 5000,
    trims := (trimsAt p 21 (u8At p 20)).map clampTrim }

/-- The checks of R24 in their order. -/
def checkLoad (p : List Byte) : Except Status ClassDesc :=
  if p.length < 21 ∨ u8At p 20 ≠ 2 ^ u8At p 2 ∨ p.length ≠ 21 + 2 * u8At p 20 then .error .length
  else if hs : u8At p 2 < 4 then
    match retentionOf (u8At p 3) with
    | none => .error .range
    | some ret =>
      if 1 ≤ u8At p 7 ∧ u8At p 7 ≤ 64 ∧ u8At p 6 + u8At p 7 ≤ 64 then .ok (descAt p ⟨u8At p 2, hs⟩ ret)
      else .error .range
  else .error .range

/-- What a CLASSLOAD that passes R24 finds (R36, R37). -/
inductive LoadMatch where
  /-- The entry to fill. -/
  | target (e : EntryIx)
  /-- Refused with the index of the entry that stands in the way. -/
  | refused (st : Status) (e : EntryIx)
  /-- No victim exists. -/
  | full
  deriving DecidableEq, Repr

/-- The target of a load of class id `c` (R36). -/
def State.loadTarget (s : State) (c : ClassId) : LoadMatch :=
  match allEntries.find? fun e => match (s.entryAt e).body with
      | .fetching tag _ => tag = c
      | _ => false with
  | some e => .target e
  | none =>
    match allEntries.find? fun e => (s.entryAt e).body.isResident && (s.entryAt e).body.matchesId c with
    | some e => if (s.entryAt e).users = 0 then .target e else .refused .inUse e
    | none =>
      match s.victim with
      | some v => .target v
      | none => .full

/-- The lowest-numbered RESIDENT entry with users, other than the target, that overlaps the new range (R37). -/
def State.overlapInUse (s : State) (t : EntryIx) (tag : ClassId) (span : Fin 4) : Option EntryIx :=
  allEntries.find? fun e => e ≠ t && (s.entryAt e).body.isResident && 0 < (s.entryAt e).users
    && (s.entryAt e).body.overlaps tag span

/-- The matching of R36 with the overlap check of R37. -/
def State.matchLoad (s : State) (d : ClassDesc) : LoadMatch :=
  match s.loadTarget d.classId with
  | .target t =>
    match s.overlapInUse t (clearLow d.classId d.span) d.span with
    | some e => .refused .overlapInUse e
    | none => .target t
  | r => r

/-- A head bound to entry `e` binds to the target with its variant computed afresh (R38, R39). -/
def State.rebindTo (s : State) (t : EntryIx) (tag : ClassId) (h : Head) : State :=
  s.modCtx h fun c => { c with binding := some { entry := t, variant := variantOf (s.requestedId h) tag } }

/-- Moves each head named to the target. -/
def moveHeads (t : EntryIx) (tag : ClassId) : List Head → State → State
  | [], s => s
  | h :: hs, s => moveHeads t tag hs (s.rebindTo t tag h)

/-- The target is filled: RESIDENT with the tag and descriptor of the load, touched, and the variants of the heads bound
to it computed afresh (R38). -/
def State.fill (s : State) (t : EntryIx) (d : ClassDesc) : State :=
  let tag := clearLow d.classId d.span
  let s1 := (s.modEntry t fun x => { x with body := .resident tag d }).touch t
  moveHeads t tag (s1.boundHeads t) s1

/-- Settles one other entry against the new range: an idle RESIDENT entry becomes INVALID, a FETCHING entry is merged
into the target (R39). -/
def State.settleOverlap (t : EntryIx) (d : ClassDesc) (e : EntryIx) (s : State) : State :=
  let tag := clearLow d.classId d.span
  if e ≠ t && (s.entryAt e).body.overlaps tag d.span then
    match (s.entryAt e).body with
    | .fetching _ _ =>
      let moved := s.boundHeads e
      ((moveHeads t tag moved s).modEntry t fun x => { x with users := x.users + moved.length }).invalidate e
    | .resident _ _ => if (s.entryAt e).users = 0 then s.invalidate e else s
    | .invalid => s
  else s

/-- Settles every other entry, in ascending index (R39). -/
def settleOverlaps (t : EntryIx) (d : ClassDesc) : List EntryIx → State → State
  | [], s => s
  | e :: es, s => settleOverlaps t d es (State.settleOverlap t d e s)

/-- The requirement "class bound and RESIDENT" of each head named becomes true (R38, R51). -/
def meetBound : List Head → State → State
  | [], s => s
  | h :: hs, s => meetBound hs (s.setBound h true)

/-- A load that passes every check, taken as one whole: fill, settlement, requirements, and the retry it starts
(R38, R39, R33). -/
def State.applyLoad (s : State) (t : EntryIx) (d : ClassDesc) : State :=
  let s1 := settleOverlaps t d allEntries (s.fill t d)
  (meetBound (s1.boundHeads t) s1).oweRetry.runRetry

end Sys2Proof.Machine
end

