-- ==== Sys2Proof/Machine/Records.lean ====
section
/-! DEFINITION. The Record Queue and the accounts of the Carrier Table (chapters 3 and 8): entering and offering records,
reporting ends of assignments, and the closing test with the offer of carrier records. -/

namespace Sys2Proof.Machine

/-! ### The Record Queue (R139, R140) -/

/-- The queue has a free slot. -/
def State.queueHasRoom (s : State) : Bool := s.queue.length < Config.recordCapacity

/-- A record enters at the tail; every entry of a record is reported (R139, R169). -/
def State.enterRecord (s : State) (r : Record) : State := { s with queue := s.queue ++ [r] }.reportRecords

/-- The offer of a joint record at a termination: it enters, or goes to the head's held-record slot (R140). -/
def State.offerJoint (s : State) (h : Head) (r : JointRecord) : State :=
  if s.queueHasRoom then s.enterRecord (.joint r) else s.modCtx h fun c => { c with heldRecord := some r }

/-! ### Accounts of a carrier (R59) -/

/-- A started cycle of the carrier terminates with an outcome of a class. -/
def CarrierEntry.ended (k : OutcomeClass) (c : CarrierEntry) : CarrierEntry :=
  let c := { c with live := c.live - 1 }
  match k with
  | .good => { c with good := c.good + 1 }
  | .reject => { c with reject := c.reject + 1 }
  | .abort => { c with abort := c.abort + 1 }
  | .fault => { c with fault := c.fault + 1 }

/-- An assignment of the carrier is discarded before its cycle started. -/
def CarrierEntry.discarded (c : CarrierEntry) : CarrierEntry :=
  { c with live := c.live - 1, notStarted := c.notStarted + 1 }

/-- The termination of a started cycle is reported to its carrier (R59). -/
def State.reportEnd (s : State) (id : CarrierId) (k : OutcomeClass) : State := s.modCarrier id (CarrierEntry.ended k)

/-- A discard is reported to its carrier (R59). -/
def State.reportDiscard (s : State) (id : CarrierId) : State := s.modCarrier id CarrierEntry.discarded

/-! ### Closing (R60, R138, R141) -/

/-- Some head holds, in its held-record slot, a joint record of the carrier. -/
def State.holdsRecordOf (s : State) (id : CarrierId) : Bool :=
  allHeads.any fun h => (s.ctxAt h).heldRecord.any fun r => r.carrier = id

/-- The carrier record of an entry, from its counts (R138). -/
def CarrierEntry.record (c : CarrierEntry) : CarrierRecord :=
  { id := c.id, assigned := c.assigned, good := c.good, reject := c.reject, abort := c.abort, fault := c.fault,
    notStarted := c.notStarted }

/-- An OPEN entry with live count 0 and no joint record of its carrier held goes to CLOSING (R60). -/
def State.closes (s : State) (c : CarrierEntry) : Bool := !c.closing && c.live = 0 && !s.holdsRecordOf c.id

/-- The closing test over the entries, older first, each carrier record offered at once: it enters the queue and the
entry is removed, or the entry stays CLOSING with it (R60, R141). -/
def closeEntries : List CarrierEntry → State → State
  | [], s => s
  | c :: cs, s =>
    closeEntries cs
      (if s.closes c then
        if s.queueHasRoom then
          { s with carriers := s.carriers.filter fun k => k.id ≠ c.id }.enterRecord (.carrier c.record)
        else s.modCarrier c.id fun k => { k with closing := true }
      else s)

/-- The closing test of R60 with the offers of R141, in age order. -/
def State.closeCarriers (s : State) : State := closeEntries s.carriers s

/-- The closing test made within a refill: the entry goes to CLOSING and its record takes its turn in the refill
(R143). -/
def State.markClosing (s : State) (id : CarrierId) : State :=
  s.modCarrier id fun c => if s.closes c then { c with closing := true } else c

/-- The records waiting outside the queue: held joint records and carrier records of CLOSING entries (R146). -/
def State.recordsWaiting (s : State) : Nat :=
  (allHeads.filter fun h => (s.ctxAt h).heldRecord.isSome).length
    + (s.carriers.filter fun c => c.closing).length

end Sys2Proof.Machine
end

