-- ==== Sys2Proof/Machine/Cycle.lean ====
section
/-! DEFINITION. The Head Context Store at work (chapters 1, 3 and 4): step start, end event and chaining, cycle start,
termination, promotion, the start of ready heads, discards and faults. -/

namespace Sys2Proof.Machine

/-! ### Steps and segments (R4, R6, R16, R17) -/

/-- What the prefetch slot receives when word `w` at address `a` has been taken (R6). -/
def State.prefetchFor (s : State) (h : Head) (a : Nat) (w : StepWord) : Prefetch :=
  if w.next || w.cont then
    if (s.boundDesc h).any fun d => d.inRange (a + 1) then .word (s.store.read (a + 1)) else .rangeError
  else .empty

/-- A step starts with word `w` at address `a` (R4). The feed baseline and the owed mark are set afresh for a FEED and
cleared otherwise (R10, R69). -/
def State.startStep (s : State) (h : Head) (a : Nat) (w : StepWord) : State :=
  (s.modCtx h fun c =>
    { c with stepAddr := a, step := some w, stepClock := 0, tStart := c.lastTemp, stepTimer := w.timer,
             feedBaseline := if w.kind? = some .feed then (s.intakeAt h).lastFeed else none,
             feedOwed := w.kind? = some .feed, prefetch := s.prefetchFor h a w }).writeTier h w.tier

/-- A segment of a CONTINUE run starts with word `w` at address `a` (R17). -/
def State.startSegment (s : State) (h : Head) (a : Nat) (w : StepWord) : State :=
  (s.modCtx h fun c =>
    { c with stepAddr := a, step := some w, stepTimer := w.timer, prefetch := s.prefetchFor h a w }).writeTier h w.tier

/-- How a cycle ended: its outcome, the end step address and kind code of the record, and whether the STOP frame carries
a feed cancel (R72, R133). -/
structure Ending where
  outcome : CycleOutcome
  addr : Nat
  code : Fin 16
  cancel : Bool
  deriving DecidableEq, Repr

/-- An ending at the step or segment the context holds. -/
def State.endingAt (s : State) (h : Head) (o : CycleOutcome) (cancel : Bool) : Ending :=
  { outcome := o, addr := (s.ctxAt h).stepAddr, code := ((s.ctxAt h).step.map StepWord.code).getD 0, cancel }

/-- An ending that is not the step's own end event: the STOP carries a feed cancel where a FEED step is running (R133). -/
def State.endingNow (s : State) (h : Head) (o : CycleOutcome) : Ending :=
  s.endingAt h o (s.runningKind h = some .feed)

/-- The exit check of a step kind: a SOAK checks its last temperature and, with WETCHECK, the wetting time; the other
kinds pass (R8, R9, R10, R11). -/
def exitCheck (w : StepWord) (minWet : Nat) (c : HeadCtx) : Option CycleOutcome :=
  if w.kind? = some .soak then
    match c.lastTemp with
    | none => some .exitLow
    | some t =>
      if t + w.window < w.target then some .exitLow
      else if w.target + w.window < t then some .exitHigh
      else if w.wet && c.wet < minWet then some .shortWetting
      else none
  else none

/-- What the end event of a step leads to (R15). -/
inductive EndDecision where
  | ends (o : CycleOutcome)
  | next (w : StepWord)
  | segment (w : StepWord)
  deriving DecidableEq, Repr

/-- The word NEXT chains to (R16). A slot that is empty, which no step with a flag set has, is taken as RANGE_ERROR. -/
def nextDecision : Prefetch → EndDecision
  | .word v => if v.kind? = none then .ends .badStep else .next v
  | _ => .ends .profileRange

/-- The word CONTINUE extends the segment with (R17). -/
def segmentDecision (code : Fin 16) : Prefetch → EndDecision
  | .word v => if v.code = code then .segment v else .ends .badStep
  | _ => .ends .profileRange

/-- The decision of R15, in the order of its cases. -/
def decideEnd (w : StepWord) (minWet : Nat) (c : HeadCtx) : EndDecision :=
  if w.next && w.cont then .ends .badStep
  else if w.cont then
    if w.kind? = some .soak || w.kind? = some .hold then segmentDecision w.code c.prefetch else .ends .badStep
  else match exitCheck w minWet c with
    | some o => .ends o
    | none => if w.next then nextDecision c.prefetch else .ends .good

/-- The decision for the step a head runs. -/
def State.endDecision (s : State) (h : Head) : EndDecision :=
  match (s.ctxAt h).step with
  | some w => decideEnd w (((s.boundDesc h).map ClassDesc.minWet).getD 0) (s.ctxAt h)
  | none => .ends .badStep

/-- A NEXT chain: the claims of the head are released and the prefetched word starts as a new step (R16). -/
def State.chainNext (s : State) (h : Head) (w : StepWord) : State :=
  (s.releaseClaims h).startStep h ((s.ctxAt h).stepAddr + 1) w

/-- A CONTINUE segment (R17). -/
def State.chainSegment (s : State) (h : Head) (w : StepWord) : State :=
  s.startSegment h ((s.ctxAt h).stepAddr + 1) w

/-- A state, and the ending of the head's cycle where it has ended and has not been terminated yet. -/
structure Progress where
  state : State
  ending : Option Ending

/-- The end event of a step, with the zero-dwell words it passes through (R15, R18). Each chain moves one address
forward inside a range of at most 1024 words, so the fuel is not used up (log entry 21). -/
def endEvent : Nat → Head → State → Progress
  | 0, h, s => { state := s, ending := some (s.endingAt h .profileRange false) }
  | n + 1, h, s =>
    match s.endDecision h with
    | .ends o => { state := s, ending := some (s.endingAt h o false) }
    | .next w =>
      if w.zeroDwell then endEvent n h (s.chainNext h w) else { state := s.chainNext h w, ending := none }
    | .segment w =>
      if w.zeroDwell then endEvent n h (s.chainSegment h w) else { state := s.chainSegment h w, ending := none }

/-- The step a head runs takes its end event. -/
def State.takeEndEvent (s : State) (h : Head) : Progress := endEvent 1026 h s

/-! ### Cycle start (R5, R67) -/

/-- The context of a head as its cycle starts: HEATING, requirements absent, fresh cycle state (R67). The step fields of
the cycle before are gone (R66); the step clock keeps its value until a first step starts, so that a cycle which ends at its
start shows the clock of the cycle before (the model's choice, log entry 14). -/
def HeadCtx.started (c : HeadCtx) (start : Nat) : HeadCtx :=
  { c with state := .heating, reqs := none, stepAddr := start, step := none, prefetch := .empty, stepTimer := none,
           iAcc := 0, limited := false, peak := none, wet := 0, energy := 0, missed := 0, overruns := 0,
           sampleMark := none, dstatMark := none }

/-- A head starts its cycle on a class: fresh cycle state, staleness timer, and the start checks of R5. -/
def State.startCycle (s : State) (h : Head) (d : ClassDesc) : Progress :=
  let s1 := (s.modCtx h fun c => c.started d.start).modIntake h
    fun i => { i with staleTimer := some (s.configAt h).staleness }
  let w := s.store.read d.start
  if d.inRange d.start then
    if w.kind? = none then
      { state := s1, ending := some { outcome := .badStep, addr := d.start, code := w.code, cancel := false } }
    else if w.zeroDwell then (s1.startStep h d.start w).takeEndEvent h
    else { state := s1.startStep h d.start w, ending := none }
  else { state := s1, ending := some { outcome := .profileRange, addr := d.start, code := 0, cancel := false } }

/-! ### Promotion (R50) -/

/-- The start requirements of an assignment from the state of the station (R50). -/
def State.requirementsFor (s : State) (h : Head) (a : Assignment) (resident : Bool) : Requirements :=
  { bound := resident,
    purge := (s.carrierAt a.carrier).any fun c => c.purge = .ok,
    released := (s.carrierAt a.carrier).any fun c => c.released,
    interlock := s.interlock,
    settle := (s.ctxAt h).settle.isNone }

/-- The assignment in a head's current slot is promoted: the head enters ARMING, the bind request is made, the
requirements are set, and the wait-list retry follows where one is called for (R50, R28, R33, R34). -/
def State.promote (s : State) (h : Head) : State :=
  match (s.ctxAt h).current with
  | none => s
  | some cur =>
    let b := (s.modCtx h fun c => { c with state := .arming, current := some { cur with promoted := true } }).bindRequest
      h cur.asg.classId cur.asg.refresh
    (b.state.modCtx h fun c => { c with reqs := some (b.state.requirementsFor h cur.asg b.resident) }).runRetry

/-- The next assignment moves into the current slot as waiting; the slot empties where there is none (R48). -/
def HeadCtx.advance (c : HeadCtx) : HeadCtx :=
  { c with current := c.next.map fun a => { asg := a, promoted := false }, next := none }

/-- The work is over in a head: its next assignment is promoted, or it goes IDLE (R74, R76, R83). -/
def State.nextWork (s : State) (h : Head) : State :=
  if (s.ctxAt h).current.isSome then s.promote h else (s.modCtx h fun c => { c with state := .idle }).runRetry

/-! ### Termination (R71 to R74) -/

/-- The joint record of a cycle (R72). -/
def State.jointRecord (s : State) (h : Head) (e : Ending) : JointRecord :=
  let c := s.ctxAt h
  let a := c.current.map Current.asg
  { head := h, carrier := (a.map Assignment.carrier).getD 0, joint := (a.map Assignment.joint).getD 0,
    classId := (a.map Assignment.classId).getD 0, outcome := e.outcome, endAddr := e.addr, endCode := e.code,
    residual := c.stepTimer.getD 0, peak := c.peak, wet := c.wet, energy := c.energy / 100, missed := c.missed,
    overruns := c.overruns }

/-- The context of a head after the work of R71 inside it and the start of the settle timer (R58). -/
def HeadCtx.terminated (c : HeadCtx) (settle : Nat) : HeadCtx :=
  { c with stepTimer := none, prefetch := .empty, feedOwed := false, feedBaseline := none, tStart := none,
           sampleMark := none, dstatMark := none, iAcc := 0, limited := false,
           settle := if settle = 0 then none else some settle }

/-- The head enters FAULTED with a cause, its next assignment waiting in the current slot (R74, R79, R80, R81). -/
def State.enterFaulted (s : State) (h : Head) (cause : FaultCause) : State :=
  (s.modCtx h fun c => { c.advance with state := .faulted, cause := some cause }).reportFault

/-- The new state of a head at termination, taken with the unbind or rebind (R34, R74). -/
def State.settleHead (s : State) (h : Head) (o : CycleOutcome) (entered : Bool) : State :=
  match causeOf o with
  | some cause => ((s.unbind h).enterFaulted h cause).runRetry
  | none =>
    let s1 := (s.unbind h).modCtx h HeadCtx.advance
    if entered then s1.nextWork h else (s1.modCtx h fun c => { c with state := .held }).runRetry

/-- The termination of a cycle with its ending, taken whole: the stop, the staleness timer, the settle timer, the joint
record offered, the carrier reported, the unbind or rebind with the new state (R71, R73). -/
def State.terminate (s : State) (h : Head) (e : Ending) : State :=
  let r := s.jointRecord h e
  let settle := ((s.boundDesc h).map ClassDesc.settle).getD 0
  let s1 := ((s.stop h e.cancel).modIntake h fun i => { i with staleTimer := none }).modCtx h
    fun c => c.terminated settle
  ((s1.offerJoint h r).reportEnd r.carrier e.outcome.cls).settleHead h e.outcome s1.queueHasRoom

/-- Terminates the cycle where it has ended. -/
def Progress.finish (p : Progress) (h : Head) : State :=
  match p.ending with
  | some e => p.state.terminate h e
  | none => p.state

/-! ### Starting ready heads (R52) -/

/-- A head in ARMING with all five requirements true, and the descriptor it is bound to. -/
def State.readyDesc (s : State) (h : Head) : Option ClassDesc :=
  if (s.ctxAt h).state = .arming
      ∧ (s.ctxAt h).reqs = some { bound := true, purge := true, released := true, interlock := true, settle := true }
  then s.boundDesc h else none

/-- The ready head of the lowest number with its descriptor. -/
def State.firstReady (s : State) : Option (Head × ClassDesc) :=
  allHeads.findSome? fun h => (s.readyDesc h).map fun d => (h, d)

/-- Starts ready heads, the lowest number first; a cycle that ends at its start is terminated before the next head is
started (R52). Each start takes a promoted assignment out of at most two per head. -/
def startLoop : Nat → State → State
  | 0, s => s
  | n + 1, s =>
    match s.firstReady with
    | none => s
    | some (h, d) => startLoop n ((s.startCycle h d).finish h)

/-- Starts every head whose last requirement has been met. -/
def State.startReady (s : State) : State := startLoop 32 s

/-- The end of an event of one head: the closing test of the termination or discard, the starts it brings, and the
closing test once every head has been started (R60, R52). -/
def State.conclude (s : State) : State := s.closeCarriers.startReady.closeCarriers

/-- An event that may end the cycle of a head: where it has ended, the termination and what it brings follow. -/
def Progress.conclude (p : Progress) (h : Head) : State :=
  match p.ending with
  | some e => (p.state.terminate h e).conclude
  | none => p.state

/-! ### Discards and faults (R77 to R81) -/

/-- A promoted assignment that is not started is discarded: the head is unbound or leaves the cache-wait list, the
carrier is reported and the requirements become absent (R77). The slots advance. -/
def State.discardCurrent (s : State) (h : Head) : State :=
  let id := ((s.ctxAt h).current.map fun c => c.asg.carrier)
  let s1 := ((s.unbind h).leaveWait h).modCtx h fun c => { c.advance with reqs := none }
  match id with
  | some id => s1.reportDiscard id
  | none => s1

/-- A next assignment, now first in line, is discarded by DROP_NEXT (R78). -/
def State.discardWaiting (s : State) (h : Head) : State :=
  match (s.ctxAt h).current with
  | some cur => (s.modCtx h fun c => { c with current := none }).reportDiscard cur.asg.carrier
  | none => s

/-- A DRIVE_FAULT acts by the head's state (R80). -/
def State.driveFault (s : State) (h : Head) : State :=
  match (s.ctxAt h).state with
  | .idle | .held =>
    (s.modCtx h fun c => { c with state := .faulted, cause := some .driveFault }).reportFault
  | .arming =>
    (((s.discardCurrent h).modCtx h fun c => { c with state := .faulted, cause := some .driveFault }).reportFault).runRetry
  | .heating => s.terminate h (s.endingNow h .driveFault)
  | .faulted | .disabled => s

/-- A head of an expired fetch, already unbound by the cache: its assignment is discarded and it enters FAULTED with
CLASS_UNAVAILABLE (R81). -/
def State.classUnavailable (s : State) (h : Head) : State :=
  ((s.discardCurrent h).modCtx h fun c => { c with state := .faulted, cause := some .classUnavailable }).reportFault

end Sys2Proof.Machine
end

