-- ==== Sys2Proof/Machine/CacheCommands.lean ====
section
/-! DEFINITION. The commands of the Class Cache: CLASSLOAD, FLUSH_CLASS, READ_CLASS and the fetch timer expiry (R24, R35
to R43, R81). -/

namespace Sys2Proof.Machine

/-- CLASSLOAD at its block: the checks of R24, the matching of R36 and R37, and the load taken as one whole; every head
it satisfies then starts (R38, R39, R52). -/
def classloadWork (p : List Byte) (s : State) : Answer :=
  match checkLoad p with
  | .error st => .refuse s st
  | .ok d =>
    match s.matchLoad d with
    | .target t => .ok (s.applyLoad t d).startReady.closeCarriers (be8 t.val)
    | .refused st e => { state := s, status := st, items := be8 e.val }
    | .full => .refuse s .tableFull

/-- CLASSLOAD (R24, R36). -/
def execClassload (src tag : Byte) (payload : List Byte) (s : State) : Result :=
  takes (answered 0x05 0x00 src tag (classloadWork payload)) s

/-- The entries FLUSH_CLASS of a set of entries makes INVALID: RESIDENT with a user count of 0 (R42). -/
def State.flushable (s : State) (es : List EntryIx) : List EntryIx :=
  es.filter fun e => (s.entryAt e).body.isResident && (s.entryAt e).users = 0

/-- Makes each entry named INVALID. -/
def invalidateAll : List EntryIx → State → State
  | [], s => s
  | e :: es, s => invalidateAll es (s.invalidate e)

/-- FLUSH_CLASS over the entries it names, those that are not INVALID among them either flushed or in the way; the retry
follows (R42, R33). -/
def State.flush (s : State) (es : List EntryIx) : Answer :=
  let flushed := s.flushable es
  let left := es.filter fun e => !(s.entryAt e).body.isInvalid && !flushed.contains e
  { state := (invalidateAll flushed s).runRetry.startReady.closeCarriers,
    status := if left.isEmpty then .ok else .inUse, items := be8 flushed.length }

/-- FLUSH_CLASS at its block (R42). -/
def flushClassWork (p : List Byte) (s : State) : Answer :=
  if p.length ≠ 4 then .refuse s .length
  else match u8At p 1 with
    | 0x00 => s.flush (s.matchEntry (id16At p 2)).toList
    | 0x01 => s.flush allEntries
    | _ => .refuse s .range

/-- FLUSH_CLASS (R42). -/
def execFlushClass (src tag : Byte) (body : List Byte) (s : State) : Result :=
  request 0x09 src tag body flushClassWork s

/-- The items of a READ_CLASS reply that belong to an entry, bytes 3 to 67; zeros where no entry is selected (R43). -/
def State.entryItems (s : State) (e : Option EntryIx) : List Byte :=
  match e with
  | none => List.replicate 65 0
  | some e =>
    let x := s.entryAt e
    let bound := fun h : Head => ((s.ctxAt h).binding.filter fun b => b.entry = e)
    flagsByte [true] ++ be8 e.val ++ be8 (entryCode x.body)
      ++ be16 ((x.body.cover.map fun c => c.1.toNat).getD 0) ++ be8 ((x.body.cover.map fun c => c.2.val).getD 0)
      ++ padTo 37 ((x.body.desc?.map descBytes).getD [])
      ++ be8 x.users
      ++ be16 (flagsNat (allHeads.map fun h => (bound h).isSome))
      ++ allHeads.flatMap (fun h => be8 (((bound h).map Binding.variant).getD 0))
      ++ be8 x.recency
      ++ be16 (match x.body with | .fetching _ t => t | _ => 0)

/-- The items of a READ_CLASS reply (71 + 3w bytes with the status). -/
def State.classItems (s : State) (e : Option EntryIx) : List Byte :=
  s.entryItems e ++ be16 s.cache.fetchLimit ++ be8 s.cache.wait.length
    ++ s.cache.wait.flatMap fun w => be8 w.head.val ++ be16 w.classId.toNat

/-- READ_CLASS at its block (R43). -/
def readClassWork (p : List Byte) (s : State) : Answer :=
  if p.length ≠ 4 then .refuse s .length
  else match u8At p 1 with
    | 0x00 => if h : u16At p 2 < 8 then .ok s (s.classItems (some ⟨u16At p 2, h⟩)) else .refuse s .range
    | 0x01 => .ok s (s.classItems (s.matchEntry (id16At p 2)))
    | _ => .refuse s .range

/-- READ_CLASS (R43). -/
def execReadClass (src tag : Byte) (body : List Byte) (s : State) : Result :=
  request 0x08 src tag body readClassWork s

/-- The bindings of the heads named are removed (R35). -/
def dropBindings : List Head → State → State
  | [], s => s
  | h :: hs, s => dropBindings hs (s.modCtx h fun c => { c with binding := none })

/-- Each head named is reported CLASS_UNAVAILABLE, in order (R81). -/
def faultUnavailable : List Head → State → State
  | [], s => s
  | h :: hs, s => faultUnavailable hs (s.classUnavailable h)

/-- The fetch of an entry has ended without a load (R35, R81): the entry becomes INVALID, its heads are unbound and
faulted in ascending number, the closing tests follow, then the retry and the starts it brings. -/
def State.expireFetch (s : State) (e : EntryIx) : State :=
  let hs := s.boundHeads e
  (faultUnavailable hs ((dropBindings hs s).invalidate e)).closeCarriers.runRetry.startReady.closeCarriers

/-- FETCH_TIMER_EXPIRY: it occurs where the fetch timer of the entry has run out (R35). -/
def execFetchTimerExpiry (e : EntryIx) (s : State) : Result :=
  event (fun s => match (s.entryAt e).body with
    | .fetching _ 0 => s.expireFetch e
    | _ => s) s

end Sys2Proof.Machine
end

