-- ==== Sys2Proof/Machine/CarrierCommands.lean ====
section
/-! DEFINITION. The commands of the Carrier Table: CARRIER, RELEASE, PURGE and the interlock (R46 to R57). -/

namespace Sys2Proof.Machine

/-! ### CARRIER (R46 to R49) -/

/-- An assignment as a CARRIER frame names it; its head number may be out of range. -/
structure Offered where
  head : Nat
  asg : Assignment
  deriving DecidableEq, Repr

/-- The `n` assignments of a CARRIER payload from an offset on. -/
def offeredAt (p : List Byte) (i : Nat) : Nat → List Offered
  | 0 => []
  | n + 1 =>
    { head := u8At p i,
      asg := { carrier := id32At p 0, joint := byteAt p (i + 1), classId := id16At p (i + 2), refresh := flagAt p (i + 4) 0 } }
      :: offeredAt p (i + 5) n

/-- The head has room for one more assignment (R49): both slots are not occupied. -/
def HeadCtx.hasRoom (c : HeadCtx) : Bool := !(c.current.isSome && c.next.isSome)

/-- The checks of R47 on one assignment, in their order; `earlier` are the head numbers before it in the frame. -/
def State.checkAssignment (s : State) (earlier : List Nat) (o : Offered) : Except Status Head :=
  if hr : o.head < 16 then
    let c := s.ctxAt ⟨o.head, hr⟩
    if c.state = .disabled then .error .notEnabled
    else if earlier.contains o.head then .error .duplicate
    else if c.hasRoom then .ok ⟨o.head, hr⟩
    else .error .slotFull
  else .error .range

/-- A refusal: position in the frame, head number as given, status (R47). -/
structure Refused where
  position : Nat
  head : Nat
  status : Status
  deriving DecidableEq, Repr

/-- What the examination of the assignments of a frame yields (R47). -/
structure Examined where
  taken : List (Head × Assignment)
  refused : List Refused

/-- Examines the assignments one at a time in frame order (R47). -/
def State.examine (s : State) (earlier : List Nat) (pos : Nat) : List Offered → Examined
  | [] => { taken := [], refused := [] }
  | o :: os =>
    let r := s.examine (o.head :: earlier) (pos + 1) os
    match s.checkAssignment earlier o with
    | .ok h => { r with taken := (h, o.asg) :: r.taken }
    | .error st => { r with refused := { position := pos, head := o.head, status := st } :: r.refused }

/-- Places a taken assignment by the head's state (R49). -/
def State.placeAssignment (s : State) (h : Head) (a : Assignment) : State :=
  if (s.ctxAt h).state = .idle then
    (s.modCtx h fun c => { c with current := some { asg := a, promoted := false } }).promote h
  else if (s.ctxAt h).current.isSome then s.modCtx h fun c => { c with next := some a }
  else s.modCtx h fun c => { c with current := some { asg := a, promoted := false } }

/-- Places the taken assignments in frame order. -/
def placeAssignments : List (Head × Assignment) → State → State
  | [], s => s
  | (h, a) :: as, s => placeAssignments as (s.placeAssignment h a)

/-- A new entry with `n` assignments taken (R47). -/
def newCarrier (id : CarrierId) (n : Nat) : CarrierEntry :=
  { id, closing := false, purge := .unconfirmed, released := false, assigned := n, live := n, good := 0, reject := 0,
    abort := 0, fault := 0, notStarted := 0 }

/-- The carrier entry is created at the tail of the age order and the taken assignments are placed; heads whose
requirements the placements meet start (R47, R49, R52). -/
def State.takeCarrier (s : State) (id : CarrierId) (taken : List (Head × Assignment)) : State :=
  if taken.isEmpty then s
  else (placeAssignments taken
    { s with carriers := s.carriers ++ [newCarrier id taken.length] }).startReady.closeCarriers

/-- A refusal in a CARRIER reply (3 bytes). -/
def refusedBytes (r : Refused) : List Byte := be8 r.position ++ be8 r.head ++ be8 (statusCode r.status)

/-- CARRIER at its block (R46, R47). -/
def carrierWork (p : List Byte) (s : State) : Answer :=
  let n := u8At p 4
  let id := id32At p 0
  if p.length < 5 ∨ n < 1 ∨ 16 < n ∨ p.length ≠ 5 + 5 * n then .refuse s .length
  else if (s.carrierAt id).isSome then .refuse s .duplicate
  else if Config.carrierCapacity ≤ s.carriers.length then .refuse s .tableFull
  else
    let x := s.examine [] 0 (offeredAt p 5 n)
    .ok (s.takeCarrier id x.taken)
      (be8 x.taken.length ++ be8 x.refused.length ++ x.refused.flatMap refusedBytes)

/-- CARRIER (R47). -/
def execCarrier (src tag : Byte) (payload : List Byte) (s : State) : Result :=
  takes (answered 0x03 0x00 src tag (carrierWork payload)) s

/-! ### Requirements of a carrier's heads (R51) -/

/-- Changes the requirements of every ARMING head whose promoted assignment satisfies a test. -/
def State.mapReqs (s : State) (p : Assignment → Bool) (f : Requirements → Requirements) : State :=
  s.mapCtx fun _ c =>
    if c.state = .arming && c.current.any (fun k => k.promoted && p k.asg) then { c with reqs := c.reqs.map f } else c

/-- Starts the heads an event has satisfied, with the closing test once every head has been started (R52, R60). -/
def State.startsDone (s : State) : State := s.startReady.closeCarriers

/-! ### RELEASE (R55) -/

/-- A carrier is marked released, and its ARMING heads have their released requirement met (R55). -/
def State.releaseCarrier (s : State) (id : CarrierId) : State :=
  ((s.modCarrier id fun c => { c with released := true }).mapReqs (fun a => a.carrier = id)
    fun r => { r with released := true }).startsDone

/-- RELEASE at its block (R55); for a CLOSING entry it has no effect (R55, R61). -/
def releaseWork (p : List Byte) (s : State) : Answer :=
  if p.length ≠ 4 then .refuse s .length
  else match s.carrierAt (id32At p 0) with
    | none => .refuse s .unknownCarrier
    | some c => if c.released || c.closing then .ok s [] else .ok (s.releaseCarrier c.id) []

/-- RELEASE (R55). -/
def execRelease (src tag : Byte) (payload : List Byte) (s : State) : Result :=
  takes (answered 0x04 0x00 src tag (releaseWork payload)) s

/-! ### PURGE (R53, R54) -/

/-- The entry's purge takes the reported value (R53). -/
def State.setPurge (s : State) (id : CarrierId) (p : Purge) : State := s.modCarrier id fun c => { c with purge := p }

/-- PURGE OK for a carrier: a carrier no entry holds makes a foreign frame (R53). -/
def State.purgeOk (s : State) (id : CarrierId) : State :=
  if (s.carrierAt id).isSome then
    ((s.setPurge id .ok).mapReqs (fun a => a.carrier = id) fun r => { r with purge := true }).startsDone
  else s.raiseForeign

/-- The heads whose cycle runs for a promoted assignment of the carrier, ascending. -/
def State.heatingOf (s : State) (id : CarrierId) : List Head :=
  allHeads.filter fun h =>
    (s.ctxAt h).state = .heating && (s.ctxAt h).current.any fun c => c.promoted && c.asg.carrier = id

/-- Ends the cycles of the heads named, in order, each head a promotion has made ready starting at once (R54, R56). -/
def endCycles (o : CycleOutcome) : List Head → State → State
  | [], s => s
  | h :: hs, s => endCycles o hs (s.terminate h (s.endingNow h o)).startReady

/-- PURGE LOST for a carrier (R54): its heads wait or are ended; the closing test follows once it has been applied. -/
def State.purgeLost (s : State) (id : CarrierId) : State :=
  if (s.carrierAt id).isSome then
    let s1 := (s.setPurge id .lost).mapReqs (fun a => a.carrier = id) fun r => { r with purge := false }
    (endCycles .purgeLost (s1.heatingOf id) s1).closeCarriers
  else s.raiseForeign

/-- PURGE with report OK (R53). -/
def execPurgeOk (src : Byte) (id : CarrierId) (s : State) : Result := unanswered src (fun s => s.purgeOk id) s

/-- PURGE with report LOST (R54). -/
def execPurgeLost (src : Byte) (id : CarrierId) (s : State) : Result := unanswered src (fun s => s.purgeLost id) s

/-! ### The interlock (R56, R57) -/

/-- The interlock state and the interlock requirement of every ARMING head take a value (R51, R56, R57). -/
def State.setInterlock (s : State) (closed : Bool) : State :=
  { s with interlock := closed }.mapReqs (fun _ => true) fun r => { r with interlock := closed }

/-- The HEATING heads, ascending. -/
def State.heatingHeads (s : State) : List Head := allHeads.filter fun h => (s.ctxAt h).state = .heating

/-- The interlock opening (R56). -/
def State.openInterlock (s : State) : State :=
  let s1 := s.setInterlock false
  (endCycles .interlock s1.heatingHeads s1).closeCarriers

/-- The interlock closing (R57). -/
def State.closeInterlock (s : State) : State := (s.setInterlock true).startsDone

/-- The ILK pin changes; while device reset holds, the level is seen at its end (R45, R152). -/
def State.setIlk (s : State) (level : Bool) : State := { s with pins := { s.pins with ilk := level } }

/-- INTERLOCK_OPENING: the ILK pin falls (R56). -/
def execInterlockOpening (s : State) : Result := event State.openInterlock (s.setIlk false)

/-- INTERLOCK_CLOSING: the ILK pin rises (R57). -/
def execInterlockClosing (s : State) : Result := event State.closeInterlock (s.setIlk true)

end Sys2Proof.Machine
end

