-- ==== Sys2Proof/Machine/HeadCommands.lean ====
section
/-! DEFINITION. The commands of the Head Context Store: SET_HEAD, READ_HEAD, HALT, CLEAR_FAULT and the expiries of the
staleness, step and settle timers (R12, R58, R65, R68, R82 to R86, R96). -/

namespace Sys2Proof.Machine

/-! ### SET_HEAD (R65, R99) -/

/-- `n` neighbour entries from an offset on, head numbers as given. -/
def neighboursAt (p : List Byte) (i : Nat) : Nat → List (Nat × Nat)
  | 0 => []
  | n + 1 => (u8At p i, u16At p (i + 1)) :: neighboursAt p (i + 3) n

/-- The neighbour head numbers are 0 to 15, not the head's own, and no two alike (R65). -/
def neighboursValid (own : Nat) (ns : List (Nat × Nat)) : Bool :=
  ns.all (fun n => n.1 < 16 && n.1 ≠ own) && (ns.map Prod.fst).Nodup

/-- The configuration in a SET_HEAD payload, clamped (R65). -/
def headConfigAt (p : List Byte) : HeadConfig :=
  { enable := flagAt p 2 0, sensor := byteAt p 3, drive := byteAt p 4, rating := min (u16At p 5) 2500,
    neighbours := (neighboursAt p 10 (u8At p 9)).map fun n => { head := Fin.ofNat 16 n.1, coeff := min n.2 1023 },
    staleness := max 5 (min (u16At p 7) 200) }

/-- A configuration is stored: the enable setting acts on the head's state and the intake state is forgotten (R65, R99). -/
def State.applyConfig (s : State) (h : Head) (c : HeadConfig) : State :=
  ((s.setConfig h c).modCtx h fun x => { x with state := if c.enable then .idle else .disabled }).modIntake h
    fun i => { i with slot := none, lastSeq := none, lastFeed := none }

/-- SET_HEAD at its block (R65). -/
def setHeadWork (p : List Byte) (s : State) : Answer :=
  let m := u8At p 9
  if p.length < 10 ∨ 2 < m ∨ p.length ≠ 10 + 3 * m then .refuse s .length
  else if hh : u8At p 1 < 16 then
    let h : Head := ⟨u8At p 1, hh⟩
    if u8At p 3 = 255 ∨ u8At p 4 = 255 ∨ ¬ neighboursValid h.val (neighboursAt p 10 m) then .refuse s .range
    else if (s.ctxAt h).state = .idle ∨ (s.ctxAt h).state = .disabled then
      .ok (s.applyConfig h (headConfigAt p)) (configBytes h (headConfigAt p))
    else .refuse s .busy
  else .refuse s .range

/-- SET_HEAD (R65). -/
def execSetHead (src tag : Byte) (body : List Byte) (s : State) : Result :=
  request 0x04 src tag body setHeadWork s

/-! ### READ_HEAD (R86) -/

/-- The head is in the cache-wait list (R66). -/
def State.isWaiting (s : State) (h : Head) : Bool := s.cache.wait.any fun w => w.head = h

/-- The items of a READ_HEAD reply (141 bytes with the status); the configuration has room for two neighbours. -/
def State.headItems (s : State) (h : Head) : List Byte :=
  padTo 15 (configBytes h (s.configAt h)) ++ ctxBytes (s.ctxAt h) (s.isWaiting h) ++ rowBytes (s.rowAt h)

/-- READ_HEAD at its block (R86). -/
def readHeadWork (p : List Byte) (s : State) : Answer :=
  if p.length ≠ 2 then .refuse s .length
  else if hh : u8At p 1 < 16 then .ok s (s.headItems ⟨u8At p 1, hh⟩)
  else .refuse s .range

/-- READ_HEAD (R86). -/
def execReadHead (src tag : Byte) (body : List Byte) (s : State) : Result :=
  request 0x05 src tag body readHeadWork s

/-! ### HALT (R82 to R84) -/

/-- The halt code of a head by its condition, the first row of R83 that applies. -/
def State.haltCodeOf (s : State) (h : Head) : HaltCode :=
  if (s.ctxAt h).heldRecord.isSome then .recordHeld
  else match (s.ctxAt h).state with
    | .heating => .haltedActive
    | .arming => .haltedArming
    | _ => .nothingToHalt

/-- An ARMING head is halted: its current assignment is discarded, with DROP_NEXT the next one too, and the head goes on
to what remains (R83, R77, R78). -/
def State.haltArming (s : State) (h : Head) (dropNext : Bool) : State :=
  let s1 := s.discardCurrent h
  (if dropNext then s1.discardWaiting h else s1).nextWork h

/-- HALT acts on one head (R83). -/
def State.haltHead (s : State) (h : Head) (dropNext : Bool) : State :=
  match s.haltCodeOf h with
  | .haltedActive => s.terminate h (s.endingNow h .halted)
  | .haltedArming => s.haltArming h dropNext
  | .recordHeld | .nothingToHalt => s

/-- HALT of one head: where it acts, the closing test and the starts it brings follow (R83, R60, R52). -/
def State.haltOne (s : State) (h : Head) (dropNext : Bool) : State :=
  match s.haltCodeOf h with
  | .haltedActive | .haltedArming => (s.haltHead h dropNext).conclude
  | .recordHeld | .nothingToHalt => s

/-- What a HALT of several heads leaves: the state and the codes in head order. -/
structure Halted where
  state : State
  codes : List HaltCode

/-- HALT takes the heads named in order, a head made ready starting at once (R84). -/
def haltHeads (dropNext : Bool) : List Head → State → Halted
  | [], s => { state := s, codes := [] }
  | h :: hs, s =>
    let r := haltHeads dropNext hs (s.haltHead h dropNext).startReady
    { r with codes := s.haltCodeOf h :: r.codes }

/-- HALT at its block (R82). The closing test of a HALT of ALL is made once all heads have been taken (R84). -/
def haltWork (p : List Byte) (s : State) : Answer :=
  let drop := flagAt p 2 0
  if p.length ≠ 3 then .refuse s .length
  else if hh : u8At p 1 < 16 then
    let h : Head := ⟨u8At p 1, hh⟩
    .ok (s.haltOne h drop) (be8 1 ++ be8 (haltCode (s.haltCodeOf h)))
  else if u8At p 1 = 0xFF then
    let r := haltHeads drop allHeads s
    .ok r.state.closeCarriers (be8 16 ++ r.codes.flatMap fun c => be8 (haltCode c))
  else .refuse s .range

/-- HALT (R82, R83). -/
def execHalt (src tag : Byte) (body : List Byte) (s : State) : Result := request 0x0A src tag body haltWork s

/-! ### CLEAR_FAULT (R85) -/

/-- The state a FAULTED head leaves to: the first case of R85 that applies. -/
def HeadCtx.clearedState (c : HeadCtx) : HeadState :=
  if c.heldRecord.isSome then .held else if c.current.isSome then .arming else .idle

/-- The fault cause is cleared and the head leaves FAULTED (R85). -/
def State.clearFault (s : State) (h : Head) : State :=
  let s1 := (s.modCtx h fun c => { c with cause := none }).reportFault
  match (s.ctxAt h).clearedState with
  | .arming => s1.promote h
  | st => s1.modCtx h fun c => { c with state := st }

/-- CLEAR_FAULT at its block (R85). The reply names the state of R85's table (log entry 16). -/
def clearFaultWork (p : List Byte) (s : State) : Answer :=
  if p.length ≠ 2 then .refuse s .length
  else if hh : u8At p 1 < 16 then
    let h : Head := ⟨u8At p 1, hh⟩
    if (s.ctxAt h).state = .faulted then
      .ok (s.clearFault h).startReady.closeCarriers (be8 (headStateCode (s.ctxAt h).clearedState))
    else .refuse s .notFaulted
  else .refuse s .range

/-- CLEAR_FAULT (R85). -/
def execClearFault (src tag : Byte) (body : List Byte) (s : State) : Result :=
  request 0x0B src tag body clearFaultWork s

/-! ### Expiries of a head's timers

An expiry occurs where its timer runs and has run out; a timer that has been stopped or started afresh in the meantime
does not expire (R68, R95; log entry 5). -/

/-- STALENESS_EXPIRY (R96). -/
def execStalenessExpiry (h : Head) (s : State) : Result :=
  event (fun s =>
    if (s.ctxAt h).state = .heating ∧ (s.intakeAt h).staleTimer = some 0 then
      (s.terminate h (s.endingNow h .sensorLost)).conclude
    else s) s

/-- DWELL_EXPIRY: the end event of a SOAK or HOLD (R68, R15). -/
def execDwellExpiry (h : Head) (s : State) : Result :=
  event (fun s =>
    if (s.ctxAt h).state = .heating ∧ (s.ctxAt h).stepTimer = some 0
        ∧ (s.runningKind h = some .soak ∨ s.runningKind h = some .hold) then
      (s.takeEndEvent h).conclude h
    else s) s

/-- The timeout outcome of a kind (R12). -/
def timeoutOf : Kind → Option CycleOutcome
  | .ramp => some .rampTimeout
  | .feed => some .feedTimeout
  | .cool => some .coolTimeout
  | .soak | .hold => none

/-- STEP_TIMEOUT: the time limit of a RAMP, FEED or COOL (R12, R68). -/
def execStepTimeout (h : Head) (s : State) : Result :=
  event (fun s =>
    if (s.ctxAt h).state = .heating ∧ (s.ctxAt h).stepTimer = some 0 then
      match (s.runningKind h).bind timeoutOf with
      | some o => (s.terminate h (s.endingNow h o)).conclude
      | none => s
    else s) s

/-- The settle timer becomes idle, and a head in ARMING has its settle requirement met (R58). -/
def State.settleDone (s : State) (h : Head) : State :=
  s.modCtx h fun c =>
    { c with settle := none,
             reqs := if c.state = .arming then c.reqs.map fun r => { r with settle := true } else c.reqs }

/-- SETTLE_TIMER_EXPIRY (R58). -/
def execSettleTimerExpiry (h : Head) (s : State) : Result :=
  event (fun s =>
    if (s.ctxAt h).settle = some 0 then (s.settleDone h).startReady.closeCarriers else s) s

end Sys2Proof.Machine
end

