-- ==== Sys2Proof/Machine/Demand.lean ====
section
/-! DEFINITION. The demand computation of one service (chapter 6): overheat check, bookkeeping, loop target, loop terms,
demand, grant, limited flag and end tests. All arithmetic is exact; division truncates toward zero (R118). -/

namespace Sys2Proof.Machine

/-! ### The loop's arithmetic -/

/-- A clamp into a range (00_scope.md 5.3). -/
def clampInt (lo hi x : Int) : Int := max lo (min x hi)

/-- The increment of a RAMP: rate × step clock / 1000, truncated (R109). -/
def rampIncrement (rate clock : Nat) : Nat := rate * clock / 1000

/-- The loop target of a RAMP, rising or falling from `start`, bounded by the target (R109). -/
def rampTarget (start target rate clock : Nat) : Nat :=
  if start ≤ target then min (start + rampIncrement rate clock) target
  else max (start - rampIncrement rate clock) target

/-- The proportional term (R110). -/
def propTerm (kp : Nat) (e : Int) : Int := (kp * e).tdiv 256

/-- The integrator accumulator after an update, clamped to 0 to 256 × rating; it stands where the limited flag is set
(R111). -/
def nextAcc (acc ki rating : Nat) (limited : Bool) (e : Int) : Nat :=
  if limited then acc else (clampInt 0 (256 * rating) (acc + ki * e)).toNat

/-- The coupling term: each neighbour's grant by its coefficient, truncated before the terms are added (R112). -/
def couplingTerm (grantOf : Head → Nat) : List Neighbour → Nat
  | [] => 0
  | n :: ns => n.coeff * grantOf n.head / 1024 + couplingTerm grantOf ns

/-- The trimmed demand (R113). -/
def trimmed (u trim : Int) : Int := (u * (1000 + trim)).tdiv 1000

/-- What the loop terms give at one service (R110 to R113). -/
structure LoopTerms where
  err : Int
  acc : Nat
  d1 : Int
  demand : Nat
  deriving DecidableEq, Repr

/-- The loop of a RAMP, SOAK or FEED with loop target `t` and measured temperature `tm` (R110 to R113). -/
def loopTerms (d : ClassDesc) (trim : Int) (rating acc : Nat) (limited : Bool) (coupling base ceiling t tm : Nat) :
    LoopTerms :=
  let e : Int := t - tm
  let acc' := nextAcc acc d.ki rating limited e
  let u : Int := base + propTerm d.kp e + (acc' / 256 : Nat) - coupling
  let d1 := trimmed u trim
  { err := e, acc := acc', d1, demand := (clampInt 0 ceiling d1).toNat }

/-- The limited flag after a closed-loop service (R114). -/
def limitedAfter (l : LoopTerms) (ceiling grant : Nat) : Bool :=
  decide (grant < l.demand) || (decide ((ceiling : Int) < l.d1) && decide (0 < l.err))
    || (decide (l.d1 < 0) && decide (l.err < 0))

/-- The RAMP end condition (R7): the ramp target has reached the target and the sample lies within the window. -/
def rampEnds (start clock tm : Nat) (w : StepWord) : Bool :=
  if start ≤ w.target then decide (w.target - start ≤ rampIncrement w.param clock) && decide (w.target ≤ tm + w.window)
  else decide (start - w.target ≤ rampIncrement w.param clock) && decide (tm ≤ w.target + w.window)

/-! ### Before the loop (R106 to R108) -/

/-- The peak temperature after a sample (R106, R108). -/
def peakAfter (peak : Option Nat) (tm : Nat) : Option Nat := some (max (peak.getD tm) tm)

/-- The time above liquidus after a sample at time `now` (R108). -/
def wetAfter (c : HeadCtx) (liquidus staleness now tm : Nat) : Nat :=
  if liquidus ≤ tm then
    min (c.wet + (c.sampleMark.map fun m => min (now - m) staleness).getD 0) Config.clockLimit
  else c.wet

/-- R107: an absent T_start takes the sample, and a RAMP restarts its step clock. -/
def supplyStart (kind : Kind) (tm : Nat) (c : HeadCtx) : HeadCtx :=
  if c.tStart.isSome then c
  else { c with tStart := some tm, stepClock := if kind = .ramp then 0 else c.stepClock }

/-- R107 and R108 in one: origin, peak, time above liquidus, previous sample mark. -/
def bookkeep (kind : Kind) (d : ClassDesc) (staleness now tm : Nat) (c : HeadCtx) : HeadCtx :=
  let c1 := supplyStart kind tm c
  { c1 with peak := peakAfter c1.peak tm, wet := wetAfter c1 d.liquidus staleness now tm, sampleMark := some now }

/-! ### One service of a HEATING head -/

/-- The trim of the head's variant (R113). -/
def State.trimOf (s : State) (h : Head) (d : ClassDesc) : Int :=
  d.trims.getD ((s.ctxAt h).binding.map Binding.variant |>.getD 0) 0

/-- The ceiling of a service: the lesser of the step's ceiling and the head's rating (R113). -/
def State.serviceCeiling (s : State) (h : Head) (w : StepWord) : Nat := min w.ceiling (s.configAt h).rating

/-- The loop target of the step (R109). -/
def loopTarget (kind : Kind) (w : StepWord) (c : HeadCtx) : Nat :=
  if kind = .ramp then rampTarget (c.tStart.getD 0) w.target w.param c.stepClock else w.target

/-- The loop terms of a service, from the state after R108. -/
def State.loopOf (s : State) (h : Head) (kind : Kind) (w : StepWord) (d : ClassDesc) (tm : Nat) : LoopTerms :=
  let c := s.ctxAt h
  loopTerms d (s.trimOf h d) (s.configAt h).rating c.iAcc c.limited
    (couplingTerm (fun j => (s.rowAt j).grant) (s.configAt h).neighbours) w.base (s.serviceCeiling h w)
    (loopTarget kind w c) tm

/-- The demand, the accumulator and the test of the limited flag on the grant, by the kind of the step (R113, R115,
R116). -/
structure ServiceDemand where
  demand : Nat
  acc : Nat
  limited : Nat → Bool

/-- Stages 4 to 8 of the service table. -/
def State.demandOf (s : State) (h : Head) (kind : Kind) (w : StepWord) (d : ClassDesc) (tm : Nat) : ServiceDemand :=
  match kind with
  | .hold =>
    let demand := min w.base (s.serviceCeiling h w)
    { demand, acc := (s.ctxAt h).iAcc, limited := fun g => g < demand }
  | .cool => { demand := 0, acc := (s.ctxAt h).iAcc, limited := fun _ => false }
  | .ramp | .soak | .feed =>
    let l := s.loopOf h kind w d tm
    { demand := l.demand, acc := l.acc, limited := limitedAfter l (s.serviceCeiling h w) }

/-- The feed length a service frame carries: at the first service of a FEED step (R10, R117). -/
def feedRequest (kind : Kind) (w : StepWord) (c : HeadCtx) : Option Nat :=
  if kind = .feed && c.feedOwed then some w.param else none

/-- Stages 4 to 11 up to the end test: demand, grant and claims, limited flag, DRIVE frame (R113 to R117). -/
def State.driveHead (s : State) (h : Head) (kind : Kind) (w : StepWord) (d : ClassDesc) (tm : Nat) : State :=
  let r := s.demandOf h kind w d tm
  let g := s.grantFor h r.demand
  (s.grantService h r.demand (some kind) (feedRequest kind w (s.ctxAt h))).modCtx h fun c =>
    { c with iAcc := r.acc, limited := r.limited g, feedOwed := if kind = .feed then false else c.feedOwed }

/-- The end test of a service (R7, R11, R117). -/
def endTest (kind : Kind) (w : StepWord) (tm : Nat) (c : HeadCtx) : Bool :=
  match kind with
  | .ramp => rampEnds (c.tStart.getD 0) c.stepClock tm w
  | .cool => tm ≤ w.target
  | .soak | .hold | .feed => false

/-- A service of a HEATING head that runs a step of a kind on a class (R105, R106, R117). -/
def State.serveStep (s : State) (h : Head) (kind : Kind) (w : StepWord) (d : ClassDesc) (tm : Nat) : Progress :=
  if d.maxTemp < tm then
    let s1 := s.modCtx h fun c => { c with lastTemp := some tm, peak := peakAfter c.peak tm }
    { state := s1, ending := some (s1.endingNow h .overheat) }
  else
    let s1 := s.modCtx h fun c =>
      bookkeep kind d (s.configAt h).staleness s.now tm { c with lastTemp := some tm }
    let s2 := s1.driveHead h kind w d tm
    if endTest kind w tm (s2.ctxAt h) then s2.takeEndEvent h else { state := s2, ending := none }

/-- A head's step, its kind and its class, where it runs one. -/
def State.runningStep (s : State) (h : Head) : Option (StepWord × Kind × ClassDesc) :=
  match (s.ctxAt h).step, s.runningKind h, s.boundDesc h with
  | some w, some k, some d => some (w, k, d)
  | _, _, _ => none

/-- A service by the state of the head when it is taken (R98). A DISABLED head never has one by R98; that its service would
have no effect is the model's choice (log entry 29). -/
def State.serveHead (s : State) (h : Head) (tm : Nat) : State :=
  match (s.ctxAt h).state with
  | .heating =>
    match s.runningStep h with
    | some (w, k, d) => (s.serveStep h k w d tm).conclude h
    | none => s.modCtx h fun c => { c with lastTemp := some tm }
  | .idle | .arming | .held | .faulted => s.modCtx h fun c => { c with lastTemp := some tm }
  | .disabled => s

end Sys2Proof.Machine
end

