-- ==== Sys2Proof/Machine/IntakeCommands.lean ====
section
/-! DEFINITION. The commands of Sample Intake and the Control Engine: SAMPLE, DSTAT and SERVICE (R91 to R103). -/

namespace Sys2Proof.Machine

/-! ### SAMPLE (R91 to R94) -/

/-- The head a SAMPLE or DSTAT frame is accepted for: the frame is 5 bytes, its head number is in range and enabled, and
its source is the head's configured node, which is not 0 (R91, R100). -/
def State.acceptedHead (s : State) (node : HeadConfig → Byte) (src : Byte) (p : List Byte) : Option Head :=
  if p.length = 5 then
    if hh : u8At p 0 < 16 then
      let h : Head := ⟨u8At p 0, hh⟩
      if (s.ctxAt h).state ≠ .disabled ∧ node (s.configAt h) = src ∧ node (s.configAt h) ≠ 0 then some h else none
    else none
  else none

/-- A saturating addition to a 16-bit count. -/
def addCount (n k : Nat) : Nat := min (n + k) Config.countLimit

/-- The gap before a sample: (sequence − last − 1) modulo 256 (R92). -/
def sampleGap (last seq : Byte) : Nat := (seq - last - 1).toNat

/-- The sequence of a new or first sample is taken, and its gap counted while the head is HEATING (R92). -/
def State.takeSequence (s : State) (h : Head) (seq : Byte) : State :=
  let gap := match (s.intakeAt h).lastSeq with
    | some last => if (s.ctxAt h).state = .heating then sampleGap last seq else 0
    | none => 0
  (s.modCtx h fun c => { c with missed := addCount c.missed gap }).modIntake h fun i => { i with lastSeq := some seq }

/-- A strong sample: the staleness timer restarts, and the sample goes into the pending slot, with an overrun where it
replaces one; both count in HEATING alone (R94). -/
def State.takeStrong (s : State) (h : Head) (seq : Byte) (temp : Nat) : State :=
  let heating : Bool := (s.ctxAt h).state = .heating
  let replaced := if heating && (s.intakeAt h).slot.isSome then 1 else 0
  (s.modCtx h fun c => { c with overruns := addCount c.overruns replaced }).modIntake h fun i =>
    { i with staleTimer := if heating then some (s.configAt h).staleness else i.staleTimer,
             slot := some { seq, temp } }

/-- An accepted SAMPLE: duplicate, weak or strong (R92, R93, R94). -/
def State.acceptSample (s : State) (h : Head) (p : List Byte) : State :=
  let seq := byteAt p 1
  if (s.intakeAt h).lastSeq = some seq then s
  else if u8At p 4 < s.minStrength then s.takeSequence h seq
  else (s.takeSequence h seq).takeStrong h seq (min (u16At p 2) 16000)

/-- SAMPLE at Sample Intake (R91). -/
def State.takeSample (s : State) (src : Byte) (p : List Byte) : State :=
  match s.acceptedHead HeadConfig.sensor src p with
  | some h => s.acceptSample h p
  | none => s.raiseForeign

/-- SAMPLE (R91). -/
def execSample (src : Byte) (payload : List Byte) (s : State) : Result :=
  unanswered src (fun s => s.takeSample src payload) s

/-! ### DSTAT (R100 to R103) -/

/-- The energy accumulator after a DSTAT (R101). -/
def energyAfter (c : HeadCtx) (staleness now delivered : Nat) : Nat :=
  match c.dstatMark with
  | none => c.energy
  | some m => min (c.energy + delivered * min (now - m) staleness) Config.energyLimit

/-- Energy accounting of a HEATING head (R101). -/
def State.accountEnergy (s : State) (h : Head) (delivered : Nat) : State :=
  if (s.ctxAt h).state = .heating then
    s.modCtx h fun c =>
      { c with energy := energyAfter c (s.configAt h).staleness s.now delivered, dstatMark := some s.now }
  else s

/-- The feed counter: recorded in any enabled state, and compared with the baseline of a running FEED step (R102, R10). -/
def State.takeFeedCounter (s : State) (h : Head) (counter : Byte) : State :=
  let s1 := s.modIntake h fun i => { i with lastFeed := some counter }
  if (s.ctxAt h).state = .heating ∧ s.runningKind h = some .feed then
    match (s.ctxAt h).feedBaseline with
    | none => s1.modCtx h fun c => { c with feedBaseline := some counter }
    | some b => if counter = b then s1 else (s1.takeEndEvent h).conclude h
  else s1

/-- An accepted DSTAT: energy, then the fault flag, then the feed counter (R100). -/
def State.acceptDstat (s : State) (h : Head) (p : List Byte) : State :=
  let s1 := s.accountEnergy h (min (u16At p 1) 2500)
  let s2 := if flagAt p 3 0 then s1.driveFault h else s1
  let s3 := s2.takeFeedCounter h (byteAt p 4)
  if flagAt p 3 0 then s3.conclude else s3

/-- DSTAT at Sample Intake (R100). -/
def State.takeDstat (s : State) (src : Byte) (p : List Byte) : State :=
  match s.acceptedHead HeadConfig.drive src p with
  | some h => s.acceptDstat h p
  | none => s.raiseForeign

/-- DSTAT (R100). -/
def execDstat (src : Byte) (payload : List Byte) (s : State) : Result :=
  unanswered src (fun s => s.takeDstat src payload) s

/-! ### SERVICE (R97, R98) -/

/-- The heads in the order pointer + 1, pointer + 2, and so on, modulo 16. -/
def turnOrder (pointer : Head) : List Head := allHeads.map fun i => pointer + 1 + i

/-- The next head to serve and its sample (R97). -/
def State.nextServed (s : State) : Option (Head × PendingSample) :=
  (turnOrder s.pointer).findSome? fun h => (s.intakeAt h).slot.map fun p => (h, p)

/-- A service: the pointer takes the head chosen, its slot is emptied, and the head is served (R97, R98). -/
def State.takeService (s : State) : State :=
  match s.nextServed with
  | none => s
  | some (h, p) =>
    ({ s with pointer := h }.modIntake h fun i => { i with slot := none }).serveHead h p.temp

/-- SERVICE (R97, R98). -/
def execService (s : State) : Result := event State.takeService s

end Sys2Proof.Machine
end

