-- ==== Sys2Proof/Machine/NoticeCommands.lean ====
section
/-! DEFINITION. The requests of the Notice Unit: SET_NOTICES and READ_STATUS (R173 to R175). -/

namespace Sys2Proof.Machine

/-- SET_NOTICES at its block (R174). In a broadcast whose own forward offer overflowed, the test of R173 and the reply items
come before the report of that RING event (the model's choice, log entry 32). -/
def setNoticesWork (p : List Byte) (s : State) : Answer :=
  if p.length ≠ 2 then .refuse s .length
  else
    let s1 := s.modNotices fun n => { n with enables := causesAt p 1 }
    let s2 := s1.announcePending
    .ok s2 (causeBits s2.notices.enables ++ causeBits s2.notices.detected ++ causeBits s2.notices.pending
      ++ flagsByte [s1.announceable && s1.ccReachable])

/-- SET_NOTICES (R174). -/
def execSetNotices (src tag : Byte) (body : List Byte) (s : State) : Result :=
  request 0x0D src tag body setNoticesWork s

/-- The items of a READ_STATUS reply (42 bytes with the status, R175). -/
def State.statusItems (s : State) : List Byte :=
  be16 s.ring.counters.crc ++ be16 s.ring.counters.overflow ++ be16 s.ring.counters.dropped
    ++ be16 s.ring.counters.foreign
    ++ causeBits s.notices.detected ++ causeBits s.notices.enables ++ causeBits s.notices.pending
    ++ be8 s.queue.length ++ be8 s.recordsWaiting
    ++ be16 (flagsNat (allHeads.map fun h => (s.ctxAt h).state = .faulted))
    ++ allHeads.flatMap (fun h => be8 (causeCode (s.ctxAt h).cause))
    ++ be8 (allHeads.filter fun h => (s.rowAt h).cap.isSome).length
    ++ be16 s.budget ++ be16 s.grantSum ++ flagsByte [s.interlock] ++ [s.ring.own, s.ring.cc]

/-- The clear option: the four counters become 0 and the RING flag and pending bit are cleared (R175). A rise earlier in the
same operation, the overflow of the broadcast that carries the request, is cleared with them and reports nothing: the clear
comes after the rise (R166), and a rise after the clear alone is an onset again (R170, R175). -/
def State.clearCounters (s : State) : State :=
  (s.modRing fun r => { r with counters := {} }).modNotices fun n =>
    { n with
      detected := { n.detected with ring := false }, pending := { n.pending with ring := false },
      reported := { n.reported with ring := false } }

/-- READ_STATUS at its block (R175). -/
def readStatusWork (p : List Byte) (s : State) : Answer :=
  if p.length ≠ 2 then .refuse s .length
  else .ok (if flagAt p 1 0 then s.clearCounters else s) s.statusItems

/-- READ_STATUS (R175). -/
def execReadStatus (src tag : Byte) (body : List Byte) (s : State) : Result :=
  request 0x0E src tag body readStatusWork s

end Sys2Proof.Machine
end

