-- ==== Sys2Proof/Machine/RecordCommands.lean ====
section
/-! DEFINITION. READ_RECORDS with the refill it causes (R142 to R146). -/

namespace Sys2Proof.Machine

/-- A cycle that ended at its start within a refill; its termination waits until the refill has placed every record it
will place (R143). -/
structure Deferred where
  head : Head
  ending : Ending
  deriving DecidableEq, Repr

/-- A state in the course of a refill, with the terminations put off. -/
structure Refilled where
  state : State
  deferred : List Deferred

/-- Starts ready heads within a refill: a cycle that ends at its start stays in HEATING with its outcome fixed (R143). -/
def startDeferring : Nat → State → List Deferred → Refilled
  | 0, s, ds => { state := s, deferred := ds }
  | n + 1, s, ds =>
    match s.firstReady with
    | none => { state := s, deferred := ds }
    | some (h, d) =>
      let p := s.startCycle h d
      startDeferring n p.state (match p.ending with
        | some e => ds ++ [{ head := h, ending := e }]
        | none => ds)

/-- The entry of a head's held record into the queue: the slot is emptied and a HELD head goes on to its waiting
assignment or to IDLE (R76). -/
def State.enterHeld (s : State) (h : Head) (r : JointRecord) : State :=
  let s1 := (s.modCtx h fun c => { c with heldRecord := none }).enterRecord (.joint r)
  if (s.ctxAt h).state = .held then s1.nextWork h else s1

/-- The held joint record that enters next: ascending head number (R142). -/
def State.firstHeld (s : State) : Option (Head × JointRecord) :=
  allHeads.findSome? fun h => (s.ctxAt h).heldRecord.map fun r => (h, r)

/-- The CLOSING entry whose carrier record enters next: the older one (R142). -/
def State.firstClosing (s : State) : Option CarrierEntry := s.carriers.find? fun c => c.closing

/-- The carrier record of a CLOSING entry enters and the entry is removed (R143). -/
def State.enterCarrier (s : State) (c : CarrierEntry) : State :=
  { s with carriers := s.carriers.filter fun k => k.id ≠ c.id }.enterRecord (.carrier c.record)

/-- The refill of R142 and R143 over the freed slots, one record per slot: held joint records first, then carrier
records of CLOSING entries. -/
def refill : Nat → State → List Deferred → Refilled
  | 0, s, ds => { state := s, deferred := ds }
  | n + 1, s, ds =>
    if s.queueHasRoom then
      match s.firstHeld with
      | some (h, r) =>
        let f := startDeferring 32 ((s.enterHeld h r).markClosing r.carrier) ds
        refill n f.state f.deferred
      | none =>
        match s.firstClosing with
        | some c => refill n (s.enterCarrier c) ds
        | none => { state := s, deferred := ds }
    else { state := s, deferred := ds }

/-- The terminations put off by a refill, each in full before the next (R143). -/
def terminateDeferred : List Deferred → State → State
  | [], s => s
  | d :: ds, s => terminateDeferred ds (s.terminate d.head d.ending).conclude

/-- The terminations put off, in ascending head number. -/
def inHeadOrder (ds : List Deferred) : List Deferred :=
  allHeads.flatMap fun h => ds.filter fun d => d.head = h

/-- The `n` oldest records leave, the freed slots are refilled, and the terminations put off follow (R145). -/
def State.takeRecords (s : State) (n : Nat) : State :=
  let s1 := { s with queue := s.queue.drop n }.reportRecords
  let f := refill n s1 []
  terminateDeferred (inHeadOrder f.deferred) f.state

/-- READ_RECORDS at its block (R145, R146). -/
def readRecordsWork (p : List Byte) (s : State) : Answer :=
  let count := u8At p 1
  if p.length ≠ 2 then .refuse s .length
  else if count < 1 ∨ 4 < count then .refuse s .range
  else
    let n := min count s.queue.length
    let s1 := s.takeRecords n
    .ok s1 (be8 n ++ be8 s1.queue.length ++ be8 s1.recordsWaiting ++ (s.queue.take n).flatMap recordBytes)

/-- READ_RECORDS (R145). -/
def execReadRecords (src tag : Byte) (body : List Byte) (s : State) : Result :=
  request 0x0C src tag body readRecordsWork s

end Sys2Proof.Machine
end

