-- ==== Sys2Proof/Machine/StationCommands.lean ====
section
/-! DEFINITION. The requests of the Ring Port, the refusal of an unknown request, and the two resets (R88, R89, R152,
R161 to R164). -/

namespace Sys2Proof.Machine

/-! ### IDENTIFY and SET_STATION (R162, R163) -/

/-- IDENTIFY at the Ring Port (R163). -/
def identifyWork (p : List Byte) (s : State) : Answer :=
  if p.length ≠ 1 then .refuse s .length
  else .ok s (be16 Config.vendorCode ++ be16 Config.partCode ++ be8 Config.revision ++ [s.ring.own] ++ be8 16 ++ be8 8
    ++ be16 Config.stepWords ++ be8 Config.recordCapacity)

/-- IDENTIFY (R163). -/
def execIdentify (src tag : Byte) (body : List Byte) (s : State) : Result := request 0x01 src tag body identifyWork s

/-- SET_STATION at the Ring Port (R162); the Notice Unit announces pending causes where an address is set (R173),
in a broadcast whose own forward offer overflowed before the report of that RING event (the model's choice, log entry 32). -/
def setStationWork (p : List Byte) (s : State) : Answer :=
  let cc := byteAt p 1
  let limit := max 10 (min (u16At p 2) 1000)
  if p.length ≠ 5 then .refuse s .length
  else if cc = 255 then .refuse s .range
  else
    let s1 := (s.modRing fun r => { r with cc }).modCache fun k => { k with fetchLimit := limit }
    .ok { s1 with minStrength := u8At p 4 }.announcePending ([cc] ++ be16 limit ++ [byteAt p 4])

/-- SET_STATION (R162). -/
def execSetStation (src tag : Byte) (body : List Byte) (s : State) : Result :=
  request 0x02 src tag body setStationWork s

/-! ### RESET_STATION (R164, R89, R63, R44, R149, R151, R168) -/

/-- Queues the STOP frames of the heads named, in order (R133, R164). -/
def placeStops : List Head → State → State
  | [], s => s
  | h :: hs, s => placeStops hs (s.placeDrive (s.stopFrame h (s.runningKind h = some .feed)))

/-- A head context after station reset (R66, R89). -/
def HeadCtx.stationReset (c : HeadConfig) : HeadCtx := { state := if c.enable then .idle else .disabled }

/-- Every block at its [SR] values: what the rules keep is kept, everything else is as after device reset. -/
def State.stationValues (s : State) : State :=
  { s with
    cache := { State.reset.cache with fetchLimit := s.cache.fetchLimit },
    carriers := [],
    ctx := Vector.ofFn fun h => HeadCtx.stationReset (s.configAt h),
    intake := State.reset.intake,
    pointer := State.reset.pointer,
    share := State.reset.share,
    queue := [],
    ring := { s.ring with general := [], counters := {} },
    notices := { enables := s.notices.enables } }

/-- Station reset, taken whole: the STOP frames of the HEATING heads, then the [SR] values (R164). -/
def State.stationReset (s : State) : State :=
  (placeStops (allHeads.filter fun h => (s.ctxAt h).state = .heating) s).stationValues

/-- RESET_STATION at the Ring Port (R164). -/
def resetStationWork (p : List Byte) (s : State) : Answer :=
  if p.length ≠ 1 then .refuse s .length else .ok s.stationReset []

/-- RESET_STATION (R164). -/
def execResetStation (src tag : Byte) (body : List Byte) (s : State) : Result :=
  request 0x0F src tag body resetStationWork s

/-! ### UNKNOWN_REQUEST (R161) -/

/-- A REQUEST frame whose payload carries no assigned code: LENGTH where it carries none at all, whose code byte in the
reply is 00h (log entry 12), and UNKNOWN_REQUEST otherwise. It reaches no block. -/
def execUnknownRequest (src tag : Byte) (payload : List Byte) (s : State) : Result :=
  if unassignedPayload payload then
    takes (answered 0x01 (u8At payload 0) src tag
      (fun s => .refuse s (if payload.isEmpty then .length else .unknownRequest))) s
  else .fault .spellsAnotherRow

/-! ### Device reset (R88, R152) -/

/-- Every block at its [POR] values while device reset holds. The queue of commands, the time base and the pins are not
the blocks'; the address and the interlock state are taken at its end (log entry 9). -/
def State.deviceReset (s : State) : State :=
  { State.reset with
    pending := s.pending, now := s.now, pins := s.pins, resetHeld := true, interlock := s.interlock,
    ring := { State.reset.ring with own := s.ring.own } }

/-- DEVICE_RESET: power-up, or RESET# goes low (R88). A frame in transmission is cut off (R151). -/
def execDeviceReset (s : State) : Result := .next s.deviceReset

/-- The own node address a strap gives (R152). -/
def strapAddress (strap : Byte) : Byte := if strap = 0 ∨ strap = 255 then 1 else strap

/-- The end of device reset: the strap is sampled and the interlock state is the level of ILK (R45, R152). -/
def State.endReset (s : State) (strap : Byte) (ilk : Bool) : State :=
  { s with resetHeld := false, pins := { ilk, strap }, interlock := ilk, ring := { s.ring with own := strapAddress strap } }

/-- DEVICE_RESET_END (R152): it occurs where device reset is in force (log entry 9). -/
def execDeviceResetEnd (strap : Byte) (ilk : Bool) (s : State) : Result :=
  .next (if s.resetHeld then s.endReset strap ilk else s)

end Sys2Proof.Machine
end

