-- ==== Sys2Proof/Machine/StepCommands.lean ====
section
/-! DEFINITION. The requests of the Step Store: WRITE_STEPS and READ_STEPS (R19 to R22). -/

namespace Sys2Proof.Machine

/-- Entry `e` locks page `p`: it is RESIDENT, has users and its page range holds the page (R19). -/
def Entry.locksPage (x : Entry) (p : Nat) : Bool :=
  match x.body with
  | .resident _ d => 0 < x.users && d.firstPage ≤ p && p < d.firstPage + d.pageCount
  | _ => false

/-- A page is locked while some entry locks it (R19). -/
def State.pageLocked (s : State) (p : Nat) : Bool := allEntries.any fun e => (s.entryAt e).locksPage p

/-- Some page from that of the first address to that of the last is locked; a run of at most 16 words touches at most
two pages (R20). -/
def State.runLocked (s : State) (start count : Nat) : Bool :=
  s.pageLocked (start / 16) || s.pageLocked ((start + count - 1) / 16)

/-- The number of words a clamp changes (R3). -/
def clampCount (ws : List StepWord) : Nat := (ws.filter fun w => clampStep w ≠ w).length

/-- WRITE_STEPS at its block (R20, R3). -/
def writeStepsWork (p : List Byte) (s : State) : Answer :=
  let start := u16At p 1
  let count := u8At p 3
  if p.length < 4 ∨ count < 1 ∨ 16 < count ∨ p.length ≠ 4 + 14 * count then .refuse s .length
  else if 1023 < start + count - 1 then .refuse s .range
  else if s.runLocked start count then .refuse s .locked
  else
    let ws := stepWordsAt p 4 count
    .ok { s with store := s.store.writeMany start (ws.map clampStep) } (be8 (clampCount ws))

/-- READ_STEPS at its block (R22). -/
def readStepsWork (p : List Byte) (s : State) : Answer :=
  let start := u16At p 1
  let count := u8At p 3
  if p.length ≠ 4 ∨ count < 1 ∨ 16 < count then .refuse s .length
  else if 1023 < start + count - 1 then .refuse s .range
  else .ok s (be16 start ++ be8 count ++ (s.store.readMany start count).flatMap stepWordBytes)

/-- WRITE_STEPS (R20). -/
def execWriteSteps (src tag : Byte) (body : List Byte) (s : State) : Result :=
  request 0x06 src tag body writeStepsWork s

/-- READ_STEPS (R22). -/
def execReadSteps (src tag : Byte) (body : List Byte) (s : State) : Result :=
  request 0x07 src tag body readStepsWork s

end Sys2Proof.Machine
end

