-- ==== Sys2Proof/Machine/RingCommands.lean ====
section
/-! DEFINITION. Reception at ring-in and the ring-out arbiter: FRAME_ARRIVAL and RING_OUT_SEND (R153 to R159). -/

namespace Sys2Proof.Machine

/-! ### Reception (R153 to R156) -/

/-- The row a consumed frame spells, taken by its block (R156, R160). A row that no frame spells changes nothing. -/
def takeRow (c : Instr) (s : State) : Result :=
  match c with
  | .identify src tag body => execIdentify src tag body s
  | .setStation src tag body => execSetStation src tag body s
  | .setBudget src tag body => execSetBudget src tag body s
  | .setHead src tag body => execSetHead src tag body s
  | .readHead src tag body => execReadHead src tag body s
  | .writeSteps src tag body => execWriteSteps src tag body s
  | .readSteps src tag body => execReadSteps src tag body s
  | .readClass src tag body => execReadClass src tag body s
  | .flushClass src tag body => execFlushClass src tag body s
  | .halt src tag body => execHalt src tag body s
  | .clearFault src tag body => execClearFault src tag body s
  | .readRecords src tag body => execReadRecords src tag body s
  | .setNotices src tag body => execSetNotices src tag body s
  | .readStatus src tag body => execReadStatus src tag body s
  | .resetStation src tag body => execResetStation src tag body s
  | .unknownRequest src tag payload => execUnknownRequest src tag payload s
  | .carrier src tag payload => execCarrier src tag payload s
  | .release src tag payload => execRelease src tag payload s
  | .classload src tag payload => execClassload src tag payload s
  | .sample src payload => execSample src payload s
  | .dstat src payload => execDstat src payload s
  | .purgeOk src carrier => execPurgeOk src carrier s
  | .purgeLost src carrier => execPurgeLost src carrier s
  | .frameArrival _ => .next s
  | .ringOutSend => .next s
  | .interlockOpening => .next s
  | .interlockClosing => .next s
  | .deviceReset => .next s
  | .deviceResetEnd _ _ => .next s
  | .stalenessExpiry _ => .next s
  | .dwellExpiry _ => .next s
  | .stepTimeout _ => .next s
  | .fetchTimerExpiry _ => .next s
  | .settleTimerExpiry _ => .next s
  | .service => .next s

/-- A frame is consumed: handed to the block that owns what it carries, or discarded as a foreign frame (R156). -/
def consume (f : Frame) (s : State) : Result :=
  match commandOf f with
  | some c => takeRow c s
  | none => takes (fun s => s.raiseForeign.report) s

/-- A frame is offered to the forward buffer: it enters at the tail, or the overflow is counted (R155). -/
def State.offerForward (s : State) (bytes : List Byte) : State :=
  if s.ring.forward.length < Config.forwardCapacity then
    s.modRing fun r => { r with forward := r.forward ++ [bytes] }
  else s.raiseOverflow

/-- What becomes of an arriving frame (R153, R154). -/
inductive Arrival where
  /-- It fails R153. -/
  | corrupt
  /-- The part's own frame, come round: stripped. -/
  | own
  /-- For the part. -/
  | addressed (f : Frame)
  /-- A broadcast; consumed as well where the part takes its kind. -/
  | broadcast (f : Frame)
  /-- For another node. -/
  | other
  deriving DecidableEq, Repr

/-- The classification of a frame by the first case that applies (R153, R154). -/
def classify (own : Byte) (bytes : List Byte) : Arrival :=
  match parseFrame bytes with
  | none => .corrupt
  | some f =>
    if f.src = own then .own
    else if f.dest = own then .addressed f
    else if f.dest = 255 then .broadcast f
    else .other

/-- FRAME_ARRIVAL: reception, and the row of the frame where it is consumed (R153 to R156). The offer of a broadcast comes
before its consumption, and the rises of both are one report, at the end of the row's work (R170; log entry 10). -/
def execFrameArrival (bytes : List Byte) (s : State) : Result :=
  match classify s.ring.own bytes with
  | .corrupt => event State.raiseCrc s
  | .own => .next s
  | .addressed f => consume f s
  | .broadcast f =>
    if takenKind f.kind then consume f (s.live fun s => s.offerForward bytes)
    else event (fun s => s.offerForward bytes) s
  | .other => event (fun s => s.offerForward bytes) s

/-! ### Ring-out (R159) -/

/-- The source ring-out sends from next. -/
inductive Sending where
  | drive (f : DriveFrame) (rest : List DriveFrame)
  | forward (bytes : List Byte) (rest : List (List Byte))
  | general (f : Frame) (rest : List Frame)
  | nothing

/-- The choice among the three sources (R159). -/
def RingPort.choose (r : RingPort) : Sending :=
  match r.drive, r.forward with
  | d :: ds, f :: fs => if r.lastSent = .drive then .forward f fs else .drive d ds
  | d :: ds, [] => .drive d ds
  | [], f :: fs => .forward f fs
  | [], [] =>
    match r.general with
    | g :: gs => .general g gs
    | [] => .nothing

/-- The chosen frame leaves its source as its transmission begins, and the alternation marker names a drive or forward
source (R155, R157, R158, R159). -/
def RingPort.send (r : RingPort) : RingPort :=
  match r.choose with
  | .drive f rest => { r with drive := rest, wire := some (f.frame r.own).bytes, lastSent := .drive }
  | .forward bytes rest => { r with forward := rest, wire := some bytes, lastSent := .forward }
  | .general f rest => { r with general := rest, wire := some f.bytes }
  | .nothing => { r with wire := none }

/-- RING_OUT_SEND: the frame in transmission, if any, has been sent to its end, and ring-out begins the next one (R159;
log entry 7). -/
def execRingOutSend (s : State) : Result := takes (fun s => s.modRing RingPort.send) s

end Sys2Proof.Machine
end

