-- ==== Sys2Proof/Machine/Dispatch.lean ====
section
/-! DEFINITION. One arm per command of the opcode table, each a direct call of its meaning. -/

namespace Sys2Proof.Machine

def exec (i : Instr) (s : State) : Host.Outcome State Fault Refusal :=
  match i with
  | .identify src tag body => Sys2Proof.Machine.execIdentify src tag body s
  | .setStation src tag body => Sys2Proof.Machine.execSetStation src tag body s
  | .setBudget src tag body => Sys2Proof.Machine.execSetBudget src tag body s
  | .setHead src tag body => Sys2Proof.Machine.execSetHead src tag body s
  | .readHead src tag body => Sys2Proof.Machine.execReadHead src tag body s
  | .writeSteps src tag body => Sys2Proof.Machine.execWriteSteps src tag body s
  | .readSteps src tag body => Sys2Proof.Machine.execReadSteps src tag body s
  | .readClass src tag body => Sys2Proof.Machine.execReadClass src tag body s
  | .flushClass src tag body => Sys2Proof.Machine.execFlushClass src tag body s
  | .halt src tag body => Sys2Proof.Machine.execHalt src tag body s
  | .clearFault src tag body => Sys2Proof.Machine.execClearFault src tag body s
  | .readRecords src tag body => Sys2Proof.Machine.execReadRecords src tag body s
  | .setNotices src tag body => Sys2Proof.Machine.execSetNotices src tag body s
  | .readStatus src tag body => Sys2Proof.Machine.execReadStatus src tag body s
  | .resetStation src tag body => Sys2Proof.Machine.execResetStation src tag body s
  | .unknownRequest src tag payload => Sys2Proof.Machine.execUnknownRequest src tag payload s
  | .carrier src tag payload => Sys2Proof.Machine.execCarrier src tag payload s
  | .release src tag payload => Sys2Proof.Machine.execRelease src tag payload s
  | .classload src tag payload => Sys2Proof.Machine.execClassload src tag payload s
  | .sample src payload => Sys2Proof.Machine.execSample src payload s
  | .dstat src payload => Sys2Proof.Machine.execDstat src payload s
  | .purgeOk src carrier => Sys2Proof.Machine.execPurgeOk src carrier s
  | .purgeLost src carrier => Sys2Proof.Machine.execPurgeLost src carrier s
  | .frameArrival bytes => Sys2Proof.Machine.execFrameArrival bytes s
  | .ringOutSend => Sys2Proof.Machine.execRingOutSend s
  | .interlockOpening => Sys2Proof.Machine.execInterlockOpening s
  | .interlockClosing => Sys2Proof.Machine.execInterlockClosing s
  | .deviceReset => Sys2Proof.Machine.execDeviceReset s
  | .deviceResetEnd strap ilk => Sys2Proof.Machine.execDeviceResetEnd strap ilk s
  | .stalenessExpiry head => Sys2Proof.Machine.execStalenessExpiry head s
  | .dwellExpiry head => Sys2Proof.Machine.execDwellExpiry head s
  | .stepTimeout head => Sys2Proof.Machine.execStepTimeout head s
  | .fetchTimerExpiry entry => Sys2Proof.Machine.execFetchTimerExpiry entry s
  | .settleTimerExpiry head => Sys2Proof.Machine.execSettleTimerExpiry head s
  | .service => Sys2Proof.Machine.execService s

end Sys2Proof.Machine
end

