-- ==== Sys2Proof/Machine/Time.lean ====
section
/-! DEFINITION. The time base (00_scope.md 5.5): one millisecond passes, every running timer counts down and every step
clock of a HEATING head counts up, and the expiry of every timer that has run out is queued (log entries 2 and 3). -/

namespace Sys2Proof.Machine

/-- A timer after one millisecond. -/
def countDown (t : Option Nat) : Option Nat := t.map fun n => n - 1

/-- A head context after one millisecond: the step timer and the step clock run while the head is HEATING (R4, R68), the
settle timer in every state (R58). -/
def HeadCtx.elapse (c : HeadCtx) : HeadCtx :=
  if c.state = .heating then
    { c with settle := countDown c.settle, stepTimer := countDown c.stepTimer,
             stepClock := min (c.stepClock + 1) Config.clockLimit }
  else { c with settle := countDown c.settle }

/-- A cache entry after one millisecond: its fetch timer runs while it is FETCHING (R31). -/
def Entry.elapse (x : Entry) : Entry :=
  match x.body with
  | .fetching tag t => { x with body := .fetching tag (t - 1) }
  | _ => x

/-- Every timer and clock after one millisecond. -/
def State.elapse (s : State) : State :=
  { s with
    now := s.now + 1,
    ctx := Vector.ofFn fun h => (s.ctxAt h).elapse,
    intake := Vector.ofFn fun h => { s.intakeAt h with staleTimer := countDown (s.intakeAt h).staleTimer },
    cache := { s.cache with entries := Vector.ofFn fun e => (s.entryAt e).elapse } }

/-- The expiry of a head's step timer, by the kind of its step (R68). -/
def State.stepExpiry (s : State) (h : Head) : Instr :=
  match s.runningKind h with
  | some .soak | some .hold => .dwellExpiry h
  | _ => .stepTimeout h

/-- The expiries that are due for one head. -/
def State.headExpiries (s : State) (h : Head) : List Instr :=
  (if (s.ctxAt h).state = .heating ∧ (s.intakeAt h).staleTimer = some 0 then [.stalenessExpiry h] else [])
    ++ (if (s.ctxAt h).state = .heating ∧ (s.ctxAt h).stepTimer = some 0 then [s.stepExpiry h] else [])
    ++ (if (s.ctxAt h).settle = some 0 then [.settleTimerExpiry h] else [])

/-- The expiry that is due for one cache entry. -/
def State.entryExpiries (s : State) (e : EntryIx) : List Instr :=
  match (s.entryAt e).body with
  | .fetching _ 0 => [.fetchTimerExpiry e]
  | _ => []

/-- Every expiry that is due. -/
def State.expiries (s : State) : List Instr :=
  allHeads.flatMap s.headExpiries ++ allEntries.flatMap s.entryExpiries

/-- Puts an expiry among others by the rank of the millisecond. -/
def insertByRank (now : Nat) (c : Instr) : List Instr → List Instr
  | [] => [c]
  | d :: ds =>
    if Config.expiryRank now c ≤ Config.expiryRank now d then c :: d :: ds else d :: insertByRank now c ds

/-- The expiries in the order they are taken (log entry 3). -/
def orderByRank (now : Nat) : List Instr → List Instr
  | [] => []
  | c :: cs => insertByRank now c (orderByRank now cs)

/-- The tick: one millisecond passes and the expiries that are due join the queue. -/
def State.tick (s : State) : State :=
  let s1 := s.elapse
  { s1 with pending := s1.pending ++ orderByRank s1.now s1.expiries }

end Sys2Proof.Machine
end

