-- ==== Sys2Proof/Safety.lean ====
section
/-! DEFINITION. The laws of the PJB-16: what its rules say holds at every moment between two commands. The laws the manual
prints in bold type are R20, R28, R39, R48, R60, R111, R123, R132, R140 and R157; the others are ranges and presences its
rules give. -/

namespace Sys2Proof.Machine

/-! ### Power (R111, R120, R123, R132) -/

/-- The sum of the grants of all sixteen heads never exceeds the station budget (R123), which lies in 0 to 16000 (R120). -/
def State.PowerWithinBudget (s : State) : Prop := s.grantSum ≤ s.budget ∧ s.budget ≤ Config.budgetLimit

/-- A head's grant never exceeds its demand (R123). -/
def State.GrantsWithinDemands (s : State) : Prop := ∀ h : Head, (s.rowAt h).grant ≤ (s.rowAt h).demand

/-- Head `h` is named as claimant by no row. -/
def State.NoClaimOf (s : State) (h : Head) : Prop := ∀ j : Head, ∀ c ∈ (s.rowAt j).cap, c.claimant ≠ h

/-- A head that is not HEATING has demand 0, grant 0, no tier and no cap, and names no claimant and is named by none
(R132). -/
def State.RestingRowsEmpty (s : State) : Prop :=
  ∀ h : Head, (s.ctxAt h).state ≠ .heating → s.rowAt h = {} ∧ s.NoClaimOf h

/-- A head's integrator accumulator stays between 0 and 256 times its rating; it is 0, and the limited flag clear, outside
HEATING (R111, R114). -/
def State.IntegratorsBounded (s : State) : Prop :=
  ∀ h : Head, (s.ctxAt h).iAcc ≤ 256 * (s.configAt h).rating ∧ (s.configAt h).rating ≤ Config.powerLimit ∧
    ((s.ctxAt h).state ≠ .heating → (s.ctxAt h).iAcc = 0 ∧ (s.ctxAt h).limited = false)

/-! ### The Class Cache (R27, R28, R39) -/

/-- The recency positions of the eight entries are a permutation of 0 to 7 (R27). -/
def State.RecencyPermutation (s : State) : Prop :=
  (∀ e : EntryIx, (s.entryAt e).recency < 8) ∧
    ∀ e f : EntryIx, (s.entryAt e).recency = (s.entryAt f).recency → e = f

/-- No class id matches more than one Class Cache entry that is not INVALID (R39). -/
def State.OneMatch (s : State) : Prop :=
  ∀ (c : ClassId) (e f : EntryIx),
    (s.entryAt e).body.matchesId c = true → (s.entryAt f).body.matchesId c = true → e = f

/-- The user count of each cache entry equals the number of heads whose binding names that entry (R28). -/
def State.UsersAreBound (s : State) : Prop := ∀ e : EntryIx, (s.entryAt e).users = (s.boundHeads e).length

/-- The variant of a bound head within its entry, which matches its requested class id (R26, R28). -/
def State.BindingsMatch (s : State) : Prop :=
  ∀ h : Head, ∀ b ∈ (s.ctxAt h).binding,
    match (s.entryAt b.entry).body with
    | .invalid => False
    | .fetching tag _ => tag = s.requestedId h ∧ b.variant = 0
    | .resident tag d => clearLow (s.requestedId h) d.span = tag ∧ b.variant = variantOf (s.requestedId h) tag

/-- The cache-wait list holds each of its heads once; a member is in ARMING and unbound, and waits for the class of its
promoted assignment (R32). -/
def State.WaitersUnbound (s : State) : Prop :=
  (s.cache.wait.map Waiter.head).Nodup ∧
    ∀ w ∈ s.cache.wait, (s.ctxAt w.head).state = .arming ∧ (s.ctxAt w.head).binding = none ∧
      (s.ctxAt w.head).current.map (fun c => (c.asg.classId, c.asg.refresh)) = some (w.classId, w.refresh)

/-- A resident descriptor has the fields its checks and clamps leave, and its entry's tag (R23, R24, R26). -/
def ClassDesc.Clamped (tag : ClassId) (d : ClassDesc) : Prop :=
  tag = clearLow d.classId d.span ∧ 1 ≤ d.pageCount ∧ d.firstPage + d.pageCount ≤ 64 ∧ d.liquidus ≤ 16000 ∧
    d.maxTemp ≤ 16000 ∧ d.kp ≤ 4095 ∧ d.ki ≤ 1023 ∧ d.settle ≤ 5000 ∧ d.trims.length = 2 ^ d.span.val ∧
    ∀ t ∈ d.trims, -250 ≤ t ∧ t ≤ 250

/-- Every descriptor the cache holds is a clamped one (R24). -/
def State.DescriptorsClamped (s : State) : Prop :=
  ∀ e : EntryIx, match (s.entryAt e).body with
    | .resident tag d => d.Clamped tag
    | _ => True

/-! ### Heads (R48, R50, R66, R140) -/

/-- What a head context holds in each state (the column "Present" of R66, R48, R50, R140). -/
def HeadCtx.Shaped (c : HeadCtx) : Prop :=
  match c.state with
  | .disabled | .idle =>
    c.current = none ∧ c.next = none ∧ c.binding = none ∧ c.reqs = none ∧ c.cause = none ∧ c.heldRecord = none
  | .arming =>
    c.current.any Current.promoted = true ∧ c.reqs.isSome = true ∧ c.cause = none ∧ c.heldRecord = none
  | .heating =>
    c.current.any Current.promoted = true ∧ c.binding.isSome = true ∧ c.reqs = none ∧ c.cause = none ∧
      c.heldRecord = none
  | .held =>
    c.current.any Current.promoted = false ∧ (c.next.isSome = true → c.current.isSome = true) ∧ c.binding = none ∧
      c.reqs = none ∧ c.cause = none ∧ c.heldRecord.isSome = true
  | .faulted =>
    c.current.any Current.promoted = false ∧ (c.next.isSome = true → c.current.isSome = true) ∧ c.binding = none ∧
      c.reqs = none ∧ c.cause.isSome = true

/-- What a head context does not hold outside HEATING (R6, R66, R71). -/
def HeadCtx.Rested (c : HeadCtx) : Prop :=
  c.state ≠ .heating → c.stepTimer = none ∧ c.prefetch = .empty ∧ c.tStart = none ∧ c.feedOwed = false ∧
    c.sampleMark = none ∧ c.dstatMark = none

/-- Every head context is shaped by its state. -/
def State.HeadsShaped (s : State) : Prop :=
  ∀ h : Head, (s.ctxAt h).Shaped ∧ (s.ctxAt h).Rested ∧
    ((s.ctxAt h).state ≠ .heating → (s.intakeAt h).staleTimer = none)

/-- A head is DISABLED exactly where its enable setting is off (R65, R88, R89). -/
def State.EnablesFollowed (s : State) : Prop :=
  ∀ h : Head, (s.ctxAt h).state = .disabled ↔ (s.configAt h).enable = false

/-- A head in ARMING is bound or waits in the cache-wait list (R28). -/
def State.ArmingPlaced (s : State) : Prop :=
  ∀ h : Head, (s.ctxAt h).state = .arming → (s.ctxAt h).binding.isSome = true ∨ ∃ w ∈ s.cache.wait, w.head = h

/-- The requirements of a head in ARMING are what the station shows for its promoted assignment (R50, R51). -/
def State.RequirementsFollow (s : State) : Prop :=
  ∀ h : Head, (s.ctxAt h).state = .arming → ∀ c ∈ (s.ctxAt h).current,
    (s.ctxAt h).reqs = some (s.requirementsFor h c.asg (s.boundDesc h).isSome)

/-- A running head is bound to a RESIDENT entry and runs a word of a valid kind (R5, R23). -/
def State.HeatingRuns (s : State) : Prop :=
  ∀ h : Head, (s.ctxAt h).state = .heating → (s.runningStep h).isSome = true

/-! ### Carriers and records (R45, R60, R139, R140, R142) -/

/-- The assignments a head holds. -/
def HeadCtx.assignments (c : HeadCtx) : List Assignment := (c.current.map Current.asg).toList ++ c.next.toList

/-- The assignments of a carrier still held by heads (R45). -/
def State.liveOf (s : State) (id : CarrierId) : Nat :=
  ((allHeads.flatMap fun h => (s.ctxAt h).assignments).filter fun a => a.carrier = id).length

/-- The Carrier Table holds at most two carriers with distinct ids (R60). -/
def State.CarriersDistinct (s : State) : Prop :=
  s.carriers.length ≤ Config.carrierCapacity ∧ (s.carriers.map CarrierEntry.id).Nodup

/-- Every assignment held by any head names a carrier in the table, and the next one another carrier than the current one
(R48, R60). -/
def State.AssignmentsNamed (s : State) : Prop :=
  ∀ h : Head, ((s.ctxAt h).assignments.map Assignment.carrier).Nodup ∧
    ∀ a ∈ (s.ctxAt h).assignments, (s.carrierAt a.carrier).isSome = true

/-- The assigned count of an entry equals the sum of its live count and its five outcome and not-started counts, and the
live count is the number of its assignments heads still hold (R45). -/
def State.AccountsBalance (s : State) : Prop :=
  ∀ c ∈ s.carriers, c.assigned = c.live + c.good + c.reject + c.abort + c.fault + c.notStarted ∧
    c.live = s.liveOf c.id ∧ c.assigned ≤ 16

/-- An entry in CLOSING has no live assignment, and no joint record of its carrier is held; a held joint record's carrier
is in the table (R60). -/
def State.ClosingAccounted (s : State) : Prop :=
  (∀ c ∈ s.carriers, c.closing = true → c.live = 0 ∧ s.holdsRecordOf c.id = false) ∧
    ∀ h : Head, ∀ r ∈ (s.ctxAt h).heldRecord, (s.carrierAt r.carrier).isSome = true

/-- The Record Queue holds at most 32 records (R140). -/
def State.QueueBounded (s : State) : Prop := s.queue.length ≤ Config.recordCapacity

/-- The queue has no free slot while any joint record is held or any carrier record waits (R142). -/
def State.NothingWaitsBesideRoom (s : State) : Prop := 0 < s.recordsWaiting → s.queueHasRoom = false

/-! ### The Step Store and the Ring Port (R1, R151, R157) -/

/-- The Step Store is in its canonical form, lists addresses 0 to 1023 alone, and holds clamped words (R1, R3). -/
def State.StoreSound (s : State) : Prop :=
  s.store.wf = true ∧ ∀ p ∈ s.store, p.1 < Config.stepWords ∧ clampStep p.2 = p.2

/-- The outbound drive slots hold at most one DRIVE frame per head (R157). -/
def State.OneDriveEach (s : State) : Prop := (s.ring.drive.map DriveFrame.head).Nodup

/-- The buffers of the Ring Port hold what they can hold, and no place stays reserved (R151, R155, R158, R160). -/
def State.RingBounded (s : State) : Prop :=
  s.ring.forward.length ≤ Config.forwardCapacity ∧ s.ring.general.length ≤ Config.generalCapacity ∧
    s.ring.reserved = false

/-- While a head waits for a class no entry can be its victim: every event that frees one runs the retry (R32, R33). -/
def State.WaitersHaveNoVictim (s : State) : Prop := s.cache.wait ≠ [] → s.victim = none

/-- The four counters saturate at 65535 (R165). -/
def State.CountersBounded (s : State) : Prop :=
  s.ring.counters.crc ≤ Config.countLimit ∧ s.ring.counters.overflow ≤ Config.countLimit ∧
    s.ring.counters.dropped ≤ Config.countLimit ∧ s.ring.counters.foreign ≤ Config.countLimit

/-- A DRIVE frame that waits for a head that is not HEATING is the STOP of its last stop (R164). -/
def State.RestingFramesStop (s : State) : Prop :=
  ∀ f ∈ s.ring.drive, (s.ctxAt f.head).state ≠ .heating → f.source = .stop

/-- The detected flags of the level causes follow their conditions (R169), and only a detected cause is pending (R171,
R173). -/
def State.CausesFollow (s : State) : Prop :=
  s.notices.detected.records = !s.queue.isEmpty ∧
    s.notices.detected.fault = decide (∃ h, (s.ctxAt h).state = .faulted) ∧
    s.notices.detected.claim = decide (∃ h, (s.rowAt h).cap.isSome = true) ∧
    s.notices.pending.diff s.notices.detected = {}

/-- The model's own transient fields are clear between commands (log entry 25). -/
abbrev State.Quiet (s : State) : Prop :=
  s.ring.reserved = false ∧ s.notices.reported = {} ∧ s.cache.retryOwed = false

/-- While device reset holds every block is at its [POR] values (R88). -/
def State.ResetFollowed (s : State) : Prop := s.resetHeld = true → s.deviceReset = s

/-! ### The whole part -/

/-- The laws of the part at every moment between two commands. -/
structure State.Lawful (s : State) : Prop where
  power : s.PowerWithinBudget
  demands : s.GrantsWithinDemands
  resting : s.RestingRowsEmpty
  integrators : s.IntegratorsBounded
  recency : s.RecencyPermutation
  oneMatch : s.OneMatch
  users : s.UsersAreBound
  bindings : s.BindingsMatch
  waiters : s.WaitersUnbound
  descriptors : s.DescriptorsClamped
  shaped : s.HeadsShaped
  enables : s.EnablesFollowed
  placed : s.ArmingPlaced
  requirements : s.RequirementsFollow
  running : s.HeatingRuns
  carriers : s.CarriersDistinct
  named : s.AssignmentsNamed
  accounts : s.AccountsBalance
  closing : s.ClosingAccounted
  queue : s.QueueBounded
  waiting : s.NothingWaitsBesideRoom
  store : s.StoreSound
  drives : s.OneDriveEach
  ring : s.RingBounded
  noVictim : s.WaitersHaveNoVictim
  counters : s.CountersBounded
  restingFrames : s.RestingFramesStop
  causes : s.CausesFollow
  resetHolds : s.ResetFollowed
  quiet : s.Quiet

/-- Nothing is due: no head waits in ARMING with all five requirements true (R52), and no OPEN carrier entry has live
count 0 with no joint record of its carrier held (R60). -/
abbrev State.Settled (s : State) : Prop :=
  s.firstReady = none ∧ ∀ c ∈ s.carriers, s.closes c = false

/-! ### Words of the statements -/

/-- The part takes events: device reset is not in force, and the model's transient fields are clear. -/
abbrev State.Taking (s : State) : Prop := s.resetHeld = false ∧ s.Quiet

/-- An answered frame from a node is taken: the part takes events, the node can send, and the general queue has a free
place for the reply (R156, R160). -/
abbrev State.Takes (s : State) (src : Byte) : Prop :=
  s.Taking ∧ sendingNode src = true ∧ s.ring.general.length < Config.generalCapacity

/-- The state with one more frame at the tail of the general queue. -/
def State.queued (s : State) (f : Frame) : State :=
  { s with ring := { s.ring with general := s.ring.general ++ [f] } }

/-- The REPLY frame with a payload: to the source node of the answered frame, with its tag (R160). -/
def State.replyTo (s : State) (src tag : Byte) (payload : List Byte) : Frame :=
  { dest := src, src := s.ring.own, kind := 0x02, tag, payload }

/-- The state with a REPLY of a payload at the tail of the general queue. -/
def State.replied (s : State) (src tag : Byte) (payload : List Byte) : State := s.queued (s.replyTo src tag payload)

/-- Some cause is pending, present and enabled, the cell controller address is set and a place is free beside the reserved
one (R173). -/
def State.mayAnnounce (s : State) : Bool :=
  ((s.notices.pending.inter s.notices.detected).inter s.notices.enables).any && s.ring.cc != 0
    && s.ring.general.length + 1 < Config.generalCapacity

/-- The state with one ATTENTION placed: it carries the causes present and the causes pending after it, and the pending
bit of every enabled cause it carries is cleared (R171, R172). -/
def State.announced (s : State) : State :=
  let after := s.notices.pending.diff (s.notices.detected.inter s.notices.enables)
  { s.queued { dest := s.ring.cc, src := s.ring.own, kind := 0x07, tag := 0,
               payload := causeBits s.notices.detected ++ causeBits after } with
    notices := { s.notices with pending := after } }

/-- The joint record of the cycle a head runs, ended at its running step or segment (R72). -/
def State.recordAt (s : State) (h : Head) (o : CycleOutcome) (a : Assignment) : JointRecord :=
  let c := s.ctxAt h
  { head := h, carrier := a.carrier, joint := a.joint, classId := a.classId, outcome := o, endAddr := c.stepAddr,
    endCode := (c.step.map StepWord.code).getD 0, residual := c.stepTimer.getD 0, peak := c.peak, wet := c.wet,
    energy := c.energy / 100, missed := c.missed, overruns := c.overruns }

/-- A head that runs a cycle: HEATING with a promoted assignment, bound to a RESIDENT entry, no fault cause, no record held
and no requirements (R48, R66). -/
abbrev State.Runs (s : State) (h : Head) (a : Assignment) (w : StepWord) (k : Kind) (d : ClassDesc) : Prop :=
  (s.ctxAt h).state = .heating ∧ (s.ctxAt h).current = some { asg := a, promoted := true } ∧
    (s.ctxAt h).cause = none ∧ (s.ctxAt h).heldRecord = none ∧ (s.ctxAt h).reqs = none ∧
    s.runningStep h = some (w, k, d)

/-! ### Binding and promotion (R28 to R32, R34, R50) -/

/-- The state with the binding of a head given up at the cache: the user count of its entry is one lower (R34). -/
def State.freed (s : State) (h : Head) : State :=
  let entry := fun e : EntryIx =>
    { s.entryAt e with
      users := (s.entryAt e).users - if (s.ctxAt h).binding.any fun b => b.entry = e then 1 else 0 }
  { s with cache := { s.cache with entries := Vector.ofFn entry } }

/-- The recency position of entry `f` once entry `e` has been touched (R27). -/
def State.touchedAt (s : State) (e f : EntryIx) : Nat :=
  if f = e then 0
  else if (s.entryAt f).recency < (s.entryAt e).recency then (s.entryAt f).recency + 1 else (s.entryAt f).recency

/-- What the lookup for class id `c` of a head leaves of the cache, from `s` to `t` (R28 to R32): a hit on a RESIDENT entry
or on a FETCHING entry, a refresh of an idle entry, a miss with a victim, which is fetched, or a miss with none. `bind`
says what follows for the head: its binding and whether the class is RESIDENT; `waits` what follows where no victim is
found. -/
def State.LooksUp (s t : State) (c : ClassId) (refresh : Bool) (bind : Binding → Bool → Prop) (waits : Prop) : Prop :=
  let hit := fun e f : EntryIx =>
    { s.entryAt f with recency := s.touchedAt e f, users := (s.entryAt f).users + if f = e then 1 else 0 }
  let fetched : Entry := { body := .fetching c s.cache.fetchLimit, users := 1, recency := 0 }
  let asked : Frame := { dest := s.ring.cc, src := s.ring.own, kind := 0x06, tag := 0, payload := be16 c.toNat }
  let isAsked := s.ring.cc ≠ 0 → s.ring.general.length < 7 → asked ∈ t.ring.general
  (∀ e tg d, (s.entryAt e).body = .resident tg d → (s.entryAt e).body.matchesId c = true →
    ¬ (refresh = true ∧ (s.entryAt e).users = 0) →
    bind { entry := e, variant := (c - tg).toNat } true ∧ ∀ f, t.entryAt f = hit e f) ∧
  (∀ e n, (s.entryAt e).body = .fetching c n →
    bind { entry := e, variant := 0 } false ∧ ∀ f, t.entryAt f = hit e f) ∧
  (∀ e, refresh = true → (s.entryAt e).body.isResident = true → (s.entryAt e).body.matchesId c = true →
    (s.entryAt e).users = 0 → ∃ v : EntryIx, v ≤ e ∧ (v = e ∨ (s.entryAt v).body = .invalid) ∧
      (∀ f, f < v → (s.entryAt f).body ≠ .invalid) ∧ bind { entry := v, variant := 0 } false ∧ isAsked ∧
      ∀ f, t.entryAt f = if f = v then fetched
        else if f = e then { body := .invalid, users := 0, recency := s.touchedAt v f }
        else { s.entryAt f with recency := s.touchedAt v f }) ∧
  ((∀ e, (s.entryAt e).body.matchesId c = false) →
    (∀ v, s.victim = some v → bind { entry := v, variant := 0 } false ∧ isAsked ∧
      ∀ f, t.entryAt f = if f = v then fetched else { s.entryAt f with recency := s.touchedAt v f }) ∧
    (s.victim = none → waits ∧ ∀ f, t.entryAt f = s.entryAt f))

/-- What the promotion of assignment `a` in head `h` leaves, from `s` to `t`, where no other head waits for a class; `x` is
the head's context as the promotion finds it (R50). -/
def State.Promoted (s t : State) (h : Head) (a : Assignment) (x : HeadCtx) : Prop :=
  let carrier := s.carriers.find? fun c => c.id = a.carrier
  let armed := fun (b : Option Binding) (bound : Bool) =>
    { x with
      state := .arming, current := some { asg := a, promoted := true }, binding := b,
      reqs := some { bound, purge := carrier.any fun c => c.purge = .ok, released := carrier.any CarrierEntry.released,
                     interlock := s.interlock, settle := x.settle.isNone } }
  s.LooksUp t a.classId a.refresh (fun b bound => t.ctxAt h = armed (some b) bound ∧ t.cache.wait = [])
    (t.ctxAt h = armed none false ∧ t.cache.wait = [{ head := h, classId := a.classId, refresh := a.refresh }])

/-- What the wait-list retry leaves, from `s` to `t` (R33): the oldest member is looked up and bound, its requirement
following the entry, and the next one is tried, until the list is empty or a member finds no entry and stays at its head
(log entry 28). -/
def State.Retried : List Waiter → State → State → Prop
  | [], s, t => t = { s with cache := { s.cache with wait := [] } }
  | w :: ws, s, t =>
    ∃ m : State, s.LooksUp m w.classId w.refresh
      (fun b bound => (∀ j, m.ctxAt j = if j = w.head then
          { s.ctxAt j with binding := some b, reqs := (s.ctxAt j).reqs.map fun r => { r with bound } } else s.ctxAt j) ∧
        (m.ring.general = s.ring.general ∨ ∃ f : Frame, f.kind = 0x06 ∧ m.ring.general = s.ring.general ++ [f]) ∧
        m = { s with cache := { s.cache with entries := m.cache.entries }, ctx := m.ctx,
                     ring := { s.ring with general := m.ring.general } } ∧
        State.Retried ws m t)
      (t = { s with cache := { s.cache with wait := w :: ws } })

/-! ### The end of a cycle (R59, R60, R71 to R74, R132) -/

/-- The state of a head whose cycle has ended with nothing behind it: FAULTED with the outcome as its cause where its class
is FAULT, HELD where the record found no room, IDLE otherwise (R74, R79). -/
def endedState (o : CycleOutcome) (entered : Bool) : HeadState :=
  if o.cls = .fault then .faulted else if entered then .idle else .held

/-- The records and carriers once joint records have been offered in order and their cycles reported, and the closing test
has been made (R59, R60, R140, R141): the records that find room enter, each carrier is counted, and a carrier with
nothing live and no record held closes, its record entering where there is room. -/
def State.Accounted (s t : State) (rs : List JointRecord) : Prop :=
  let room := Config.recordCapacity - s.queue.length
  let count := fun (c : CarrierEntry) (k : OutcomeClass) =>
    (rs.filter fun r => decide (r.carrier = c.id) && decide (r.outcome.cls = k)).length
  let after := s.carriers.map fun c =>
    { c with
      live := c.live - (rs.filter fun r => r.carrier = c.id).length, good := c.good + count c .good,
      reject := c.reject + count c .reject, abort := c.abort + count c .abort, fault := c.fault + count c .fault }
  let closers := after.filter fun c => decide (c.live = 0) && !c.closing && (rs.any fun r => r.carrier = c.id) &&
    !((rs.drop room).any fun r => r.carrier = c.id)
  let entering := closers.take (room - rs.length)
  t.queue = s.queue ++ (rs.take room).map Record.joint ++ entering.map (fun c => Record.carrier c.record) ∧
    t.carriers = (after.map fun c => if c ∈ closers then { c with closing := true } else c).filter
      fun c => !entering.any fun k => k.id = c.id

/-- What the termination of the cycle of head `h` with joint record `r` leaves, with the closing test it brings, where no
head waits in the cache-wait list (R59, R60, R71 to R74, R132). A next assignment moves into the current slot as waiting
where the head is FAULTED or HELD, and is promoted where it would be IDLE. (That a feed baseline is absent then is the
model's reading, log entry 15.) -/
def State.EndedWith (s t : State) (h : Head) (r : JointRecord) (d : ClassDesc) (cancel : Bool) : Prop :=
  let c := s.ctxAt h
  let entered := s.queueHasRoom
  let rest : HeadCtx :=
    { c with
      state := endedState r.outcome entered, current := c.next.map fun b => { asg := b, promoted := false },
      next := none, binding := none, reqs := none, prefetch := .empty, stepTimer := none, feedBaseline := none,
      feedOwed := false, tStart := none, iAcc := 0, limited := false, sampleMark := none, dstatMark := none,
      settle := if d.settle = 0 then none else some d.settle, cause := causeOf r.outcome,
      heldRecord := if entered then none else some r }
  (c.next = none ∨ endedState r.outcome entered ≠ .idle →
    t.ctxAt h = rest ∧ (∀ e, t.entryAt e = (s.freed h).entryAt e) ∧ t.cache.wait = s.cache.wait) ∧
  (∀ b, c.next = some b → endedState r.outcome entered = .idle → (s.freed h).Promoted t h b rest) ∧
  (∀ j, j ≠ h → t.ctxAt j = s.ctxAt j) ∧
  t.intakeAt h = { s.intakeAt h with staleTimer := none } ∧ (∀ j, j ≠ h → t.intakeAt j = s.intakeAt j) ∧
  t.rowAt h = {} ∧
  (∀ j, j ≠ h → t.rowAt j = { s.rowAt j with cap := (s.rowAt j).cap.filter fun c => c.claimant ≠ h }) ∧
  (t.ring.drive.find? fun f => f.head = h) = some
    { dest := (s.configAt h).drive, head := h, grant := 0, activity := none, source := .stop, feedLen := none, cancel } ∧
  (t.ring.drive.filter fun f => f.head ≠ h) = (s.ring.drive.filter fun f => f.head ≠ h) ∧
  s.Accounted t [r] ∧ t.notices.enables = s.notices.enables ∧
  t = { s with ctx := t.ctx, intake := t.intake, share := t.share, carriers := t.carriers, queue := t.queue,
               cache := { s.cache with entries := t.cache.entries, wait := t.cache.wait }, notices := t.notices,
               ring := { s.ring with drive := t.ring.drive, general := t.ring.general } }

/-- What the end of the cycles of several heads with one outcome leaves (R54, R56, R59, R60, R71 to R74, R133), in ascending
order of the heads, where none of them holds a next assignment and no head waits in the cache-wait list: the records that
find room enter in head order, and the later ones are held. -/
def State.AllEnded (s t : State) (hs : List Head) (o : CycleOutcome) : Prop :=
  let record := fun h : Head => (s.ctxAt h).current.map fun c => s.recordAt h o c.asg
  let room := Config.recordCapacity - s.queue.length
  (∀ h ∈ hs,
    let entered := decide ((hs.filter fun j => decide (j < h)).length < room)
    t.ctxAt h =
      { s.ctxAt h with
        state := endedState o entered, current := none, next := none, binding := none, reqs := none, prefetch := .empty,
        stepTimer := none, feedBaseline := none, feedOwed := false, tStart := none, iAcc := 0, limited := false,
        sampleMark := none, dstatMark := none,
        settle := (s.boundDesc h).bind fun d => if d.settle = 0 then none else some d.settle, cause := causeOf o,
        heldRecord := if entered then none else record h } ∧
    t.intakeAt h = { s.intakeAt h with staleTimer := none } ∧ t.rowAt h = {} ∧
    (t.ring.drive.find? fun f => f.head = h) = some
      { dest := (s.configAt h).drive, head := h, grant := 0, activity := none, source := .stop, feedLen := none,
        cancel := decide (s.runningKind h = some .feed) }) ∧
  (∀ j, j ∉ hs → t.ctxAt j = s.ctxAt j ∧ t.intakeAt j = s.intakeAt j ∧
    t.rowAt j = { s.rowAt j with cap := (s.rowAt j).cap.filter fun c => c.claimant ∉ hs }) ∧
  (t.ring.drive.filter fun f => f.head ∉ hs) = (s.ring.drive.filter fun f => f.head ∉ hs) ∧
  (∀ e, t.entryAt e =
    { s.entryAt e with
      users := (s.entryAt e).users - (hs.filter fun h => (s.ctxAt h).binding.any fun b => b.entry = e).length }) ∧
  s.Accounted t (hs.filterMap record) ∧ t.notices.enables = s.notices.enables ∧
  t = { s with ctx := t.ctx, intake := t.intake, share := t.share, carriers := t.carriers, queue := t.queue,
               cache := { s.cache with entries := t.cache.entries }, notices := t.notices,
               ring := { s.ring with drive := t.ring.drive, general := t.ring.general } }

/-! ### Steps, chains and starts (R4 to R6, R16 to R18, R52, R67) -/

/-- The prefetch slot once word `w` at address `a` has been taken on class `d` (R6). -/
def State.slotAfter (s : State) (d : ClassDesc) (a : Nat) (w : StepWord) : Prefetch :=
  if w.next || w.cont then (if d.inRange (a + 1) then .word (s.store.read (a + 1)) else .rangeError) else .empty

/-- The context of a head that has entered HEATING and has no step yet (R67). (The step clock is that of the cycle before:
log entry 14.) -/
def State.startingCtx (s : State) (h : Head) (d : ClassDesc) : HeadCtx :=
  { s.ctxAt h with
    state := .heating, reqs := none, stepAddr := d.start, step := none, prefetch := .empty, stepTimer := none, iAcc := 0,
    limited := false, peak := none, wet := 0, energy := 0, missed := 0, overruns := 0, sampleMark := none,
    dstatMark := none }

/-- The context of a head whose cycle has started with the start word as its first step (R67, R4, R6, R10). -/
def State.startedCtx (s : State) (h : Head) (d : ClassDesc) : HeadCtx :=
  let w := s.store.read d.start
  { s.startingCtx h d with
    step := some w, prefetch := s.slotAfter d d.start w, stepClock := 0, stepTimer := w.timer,
    feedBaseline := if w.kind? = some .feed then (s.intakeAt h).lastFeed else none,
    feedOwed := w.kind? = some .feed, tStart := (s.ctxAt h).lastTemp }

/-- A head in ARMING with all five requirements true, bound to a class whose start word is a valid step with time to run
(R50, R52, R5). -/
abbrev State.ReadyOn (s : State) (h : Head) (d : ClassDesc) : Prop :=
  (s.ctxAt h).state = .arming ∧
    (s.ctxAt h).reqs = some { bound := true, purge := true, released := true, interlock := true, settle := true } ∧
    s.boundDesc h = some d ∧ d.inRange d.start = true ∧ (s.store.read d.start).kind? ≠ none ∧
    (s.store.read d.start).zeroDwell = false

/-- What the start of the cycle of head `h` leaves of it (R67, R4, R6, R10): fresh cycle state, the start word as the first
step, the staleness timer, and the tier in its row. -/
def State.CycleStarted (s t : State) (h : Head) (d : ClassDesc) : Prop :=
  t.ctxAt h = s.startedCtx h d ∧
  t.intakeAt h = { s.intakeAt h with staleTimer := some (s.configAt h).staleness } ∧
  t.rowAt h = { tier := some (s.store.read d.start).tier }

/-- The state `done` with every head that is ready in `s` started on its start word. -/
def State.withStarts (s done : State) : State :=
  let context := fun h : Head => match s.readyDesc h with
    | some d => s.startedCtx h d
    | none => s.ctxAt h
  let intake := fun h : Head =>
    if (s.readyDesc h).isSome then { s.intakeAt h with staleTimer := some (s.configAt h).staleness } else s.intakeAt h
  let row := fun h : Head => match s.readyDesc h with
    | some d => { s.rowAt h with tier := some (s.store.read d.start).tier }
    | none => s.rowAt h
  { done with ctx := Vector.ofFn context, intake := Vector.ofFn intake, share := Vector.ofFn row }

/-- Two states that differ in the notices and the general queue alone, and hold the same replies. -/
def State.AlikeButNotices (s t : State) : Prop :=
  t = { s with notices := t.notices, ring := { s.ring with general := t.ring.general } } ∧
    (t.ring.general.filter fun f => f.kind = 0x02) = s.ring.general.filter fun f => f.kind = 0x02

/-- The state with a step timer of head `h` that has just run out. A word with a dwell of 0 takes its end event at once
(R18), as a dwell that has run out takes it. -/
def State.runOut (s : State) (h : Head) : State :=
  { s with ctx := s.ctx.set h.val { s.ctxAt h with stepTimer := some 0 } }

/-- What an event that has met requirements leaves (R51, R52): `s` is the state with the requirements met and `done` the
outcome where no head can start. Heads that can start on a valid step have all started, and nothing else has changed. A
single head whose start fails a check of R5 has ended its cycle with the start address and the code found there, and one
whose start word has no dwell is left as its dwell expiry leaves it (R18), stated for a head with no next assignment. -/
def State.StartsFrom (s done t : State) : Prop :=
  (s.firstReady = none → t = done) ∧
  ((∀ h d, s.readyDesc h = some d → s.ReadyOn h d) → t = s.withStarts done) ∧
  (∀ h d, s.ReadyOn h d → s.CycleStarted t h d) ∧
  (∀ h a d, s.cache.wait = [] → s.readyDesc h = some d → (∀ j, j ≠ h → s.readyDesc j = none) →
    (s.ctxAt h).current = some { asg := a, promoted := true } → (s.ctxAt h).next = none →
    let w := s.store.read d.start
    let s1 := { s with ctx := s.ctx.set h.val (s.startingCtx h d) }
    let ends := fun (o : CycleOutcome) (code : Fin 16) =>
      s1.EndedWith t h { s1.recordAt h o a with endCode := code } d false ∧
        (t.ring.general.filter fun f => f.kind = 0x02) = done.ring.general.filter fun f => f.kind = 0x02
    (d.inRange d.start = false → ends .profileRange 0) ∧
    (d.inRange d.start = true → w.kind? = none → ends .badStep w.code) ∧
    (d.inRange d.start = true → w.zeroDwell = true →
      ∃ u, exec (.dwellExpiry h) ((s.withStarts done).runOut h) = .next u ∧ u.AlikeButNotices t))

/-- What the end of the cycle head `h` runs leaves: its termination at the running step or segment, and the start of a next
assignment that is ready at its promotion (R52). -/
def State.CycleEnded (s t : State) (h : Head) (o : CycleOutcome) (a : Assignment) (d : ClassDesc) (cancel : Bool) : Prop :=
  ∃ m : State, s.EndedWith m h (s.recordAt h o a) d cancel ∧ m.StartsFrom m t

/-- The state once a NEXT chain of head `h` has taken word `w` on class `d` (R16, R69): the word as a new step (R4, R6,
R10), the head's claims released, its tier written, and everything else as it stands. -/
def State.chained (s : State) (h : Head) (w : StepWord) (d : ClassDesc) : State :=
  let a := (s.ctxAt h).stepAddr + 1
  let row := fun j : Head =>
    { s.rowAt j with
      tier := if j = h then some w.tier else (s.rowAt j).tier, cap := (s.rowAt j).cap.filter fun c => c.claimant ≠ h }
  { s with
    ctx := s.ctx.set h.val
      { s.ctxAt h with
        stepAddr := a, step := some w, prefetch := s.slotAfter d a w, stepClock := 0, stepTimer := w.timer,
        tStart := (s.ctxAt h).lastTemp, feedBaseline := if w.kind? = some .feed then (s.intakeAt h).lastFeed else none,
        feedOwed := w.kind? = some .feed },
    share := Vector.ofFn row }

/-- What a NEXT chain of head `h` into word `w` leaves on class `d`: the word as the running step, with nothing but notices
beside it, or, where the word has no dwell, what the end of that word leaves in its turn (R18). -/
def State.ChainedNext (s t : State) (h : Head) (w : StepWord) (d : ClassDesc) : Prop :=
  (w.zeroDwell = false → (s.chained h w d).AlikeButNotices t) ∧
    (w.zeroDwell = true → ∃ u, exec (.dwellExpiry h) ((s.chained h w d).runOut h) = .next u ∧ u.AlikeButNotices t)

/-- The state after a CONTINUE segment of head `h` into word `w` on class `d` (R17): only the timer starts afresh. -/
def State.chainedSegment (s : State) (h : Head) (w : StepWord) (d : ClassDesc) : State :=
  let a := (s.ctxAt h).stepAddr + 1
  (s.modCtx h fun c => { c with stepAddr := a, step := some w, prefetch := s.slotAfter d a w, stepTimer := w.timer }).modRow
    h fun r => { r with tier := some w.tier }

/-- The current assignment of head `h` names a carrier. -/
def State.namesCarrier (s : State) (id : CarrierId) (h : Head) : Bool :=
  (s.ctxAt h).current.any fun c => c.asg.carrier = id

/-- The state with the requirements changed of every ARMING head that a test names (R51). -/
def State.withReqs (s : State) (named : Head → Bool) (f : Requirements → Requirements) : State :=
  let context := fun h : Head =>
    if (s.ctxAt h).state = .arming ∧ named h = true then { s.ctxAt h with reqs := (s.ctxAt h).reqs.map f } else s.ctxAt h
  { s with ctx := Vector.ofFn context }

/-- The state with the entry of a carrier changed. -/
def State.withCarrier (s : State) (id : CarrierId) (f : CarrierEntry → CarrierEntry) : State :=
  { s with carriers := s.carriers.map fun c => if c.id = id then f c else c }

/-- What the discard of promoted and next assignments of an ARMING head leaves, where no head waits in the cache-wait list
(R48, R77, R78, R80, R83): the head unbound, in the state named with the cause and the assignment named, and the
carriers' counts where none of them closes. -/
def State.Discarded (s t : State) (h : Head) (dropped : List Assignment) (kept : Option Assignment) (st : HeadState)
    (cause : Option FaultCause) : Prop :=
  t.ctxAt h =
    { s.ctxAt h with
      state := st, current := kept.map fun b => { asg := b, promoted := false }, next := none, binding := none,
      reqs := none, cause } ∧
  (∀ j, j ≠ h → t.ctxAt j = s.ctxAt j) ∧ (∀ e, t.entryAt e = (s.freed h).entryAt e) ∧
  ((∀ c ∈ s.carriers, c.id ∈ dropped.map Assignment.carrier → 1 < c.live) →
    t.carriers = (s.carriers.map fun c => if c.id ∈ dropped.map Assignment.carrier then c.discarded else c) ∧
    t.queue = s.queue) ∧
  t.notices.enables = s.notices.enables ∧
  t = { s with ctx := t.ctx, carriers := t.carriers, queue := t.queue, notices := t.notices,
               cache := { s.cache with entries := t.cache.entries }, ring := { s.ring with general := t.ring.general } }

/-! ### Layouts (R2, R167) -/

/-- A byte from its bits, bit 0 first. -/
def bitsByte (bs : List Bool) : Byte :=
  BitVec.ofNat 8 ((bs.zipIdx.map fun p => if p.1 then 2 ^ p.2 else 0).sum)

/-- A field present under a condition occupies its bytes always, as zeros when absent. -/
def fieldOr (n : Nat) (f : Option (List Byte)) : List Byte := f.getD (List.replicate n 0)

/-- A step word (14 bytes). -/
def wordLayout (w : StepWord) : List Byte :=
  [BitVec.ofNat 8 (w.code.val + 16 * w.tier.val), bitsByte [w.next, w.cont, w.wet]] ++ be16 w.target ++ be16 w.window ++
    be16 w.param ++ be16 w.limit ++ be16 w.ceiling ++ be16 w.base

/-- The outcome codes. -/
def outcomeLayout : CycleOutcome → Byte
  | .good => 0x00
  | .rampTimeout => 0x10
  | .exitLow => 0x11
  | .exitHigh => 0x12
  | .shortWetting => 0x13
  | .feedTimeout => 0x14
  | .coolTimeout => 0x15
  | .overheat => 0x16
  | .purgeLost => 0x17
  | .halted => 0x20
  | .interlock => 0x21
  | .sensorLost => 0x30
  | .driveFault => 0x31
  | .badStep => 0x32
  | .profileRange => 0x33

/-- A joint record (29 bytes). -/
def jointLayout (r : JointRecord) : List Byte :=
  [BitVec.ofNat 8 r.head.val] ++ be32 r.carrier.toNat ++ [r.joint] ++ be16 r.classId.toNat ++ [outcomeLayout r.outcome] ++
    be16 r.endAddr ++ [BitVec.ofNat 8 r.endCode.val] ++ be16 r.residual ++ [bitsByte [r.peak.isSome]] ++
    be16 (r.peak.getD 0) ++ be32 r.wet ++ be32 r.energy ++ be16 r.missed ++ be16 r.overruns

/-- A record of a READ_RECORDS reply: its type byte, then a joint record or a carrier record (10 bytes). -/
def recordLayout : Record → List Byte
  | .joint r => [0x01] ++ jointLayout r
  | .carrier c => [0x02] ++ be32 c.id.toNat ++ be8 c.assigned ++ be8 c.good ++ be8 c.reject ++ be8 c.abort ++ be8 c.fault ++
      be8 c.notStarted

/-- The payload of a DRIVE frame (8 bytes). -/
def driveLayout (f : DriveFrame) : List Byte :=
  let activity : Byte := match f.activity with
    | none => 0x00
    | some .ramp => 0x01
    | some .soak => 0x02
    | some .hold => 0x03
    | some .feed => 0x04
    | some .cool => 0x05
  let source : Byte := match f.source with
    | .control => 0x00
    | .headroom => 0x01
    | .capped => 0x02
    | .budgetCut => 0x03
    | .stop => 0x04
  [BitVec.ofNat 8 f.head.val] ++ be16 f.grant ++ [activity, source, bitsByte [f.feedLen.isSome, f.cancel]] ++
    be16 (f.feedLen.getD 0)

/-- An assignment in a READ_HEAD reply (8 bytes). -/
def assignmentLayout (a : Assignment) : List Byte :=
  be32 a.carrier.toNat ++ [a.joint] ++ be16 a.classId.toNat ++ [bitsByte [a.refresh]]

/-- The bytes 3 to 140 of a READ_HEAD reply. -/
def State.headLayout (s : State) (h : Head) : List Byte :=
  let g := s.configAt h
  let c := s.ctxAt h
  let row := s.rowAt h
  let state : Byte := match c.state with
    | .disabled => 0x00
    | .idle => 0x01
    | .arming => 0x02
    | .heating => 0x03
    | .held => 0x04
    | .faulted => 0x05
  let cause : Byte := match c.cause with
    | none => 0x00
    | some .sensorLost => 0x30
    | some .driveFault => 0x31
    | some .badStep => 0x32
    | some .profileRange => 0x33
    | some .classUnavailable => 0x34
  let neighbour := fun i : Nat => fieldOr 3 (g.neighbours[i]?.map fun n => [BitVec.ofNat 8 n.head.val] ++ be16 n.coeff)
  -- 3 to 17: the configuration
  ([BitVec.ofNat 8 h.val, bitsByte [g.enable], g.sensor, g.drive] ++ be16 g.rating ++ be16 g.staleness ++
    be8 g.neighbours.length ++ neighbour 0 ++ neighbour 1) ++
  -- 18, 19: the state and what is present
  [state, bitsByte [c.current.isSome, c.current.any Current.promoted, c.next.isSome, c.binding.isSome,
    s.cache.wait.any fun w => w.head = h, c.reqs.isSome, c.step.isSome, c.stepTimer.isSome]] ++
  -- 20 to 35: the assignments
  fieldOr 8 (c.current.map fun k => assignmentLayout k.asg) ++ fieldOr 8 (c.next.map assignmentLayout) ++
  -- 36 to 38: binding and requirements
  fieldOr 2 (c.binding.map fun b => [BitVec.ofNat 8 b.entry.val] ++ be8 b.variant) ++
  [bitsByte ((c.reqs.map fun r => [r.bound, r.purge, r.released, r.interlock, r.settle]).getD [])] ++
  -- 39 to 69: step address, step fields, prefetch slot
  be16 c.stepAddr ++ fieldOr 14 (c.step.map wordLayout) ++
  (match c.prefetch with
    | .empty => [0x00] ++ List.replicate 14 0
    | .word w => [0x01] ++ wordLayout w
    | .rangeError => [0x02] ++ List.replicate 14 0) ++
  -- 70 to 76: step clock, step timer, what is present
  be32 c.stepClock ++ be16 (c.stepTimer.getD 0) ++
  [bitsByte [c.feedBaseline.isSome, c.feedOwed, c.tStart.isSome, c.lastTemp.isSome, c.limited, c.peak.isSome,
    c.settle.isSome, c.heldRecord.isSome]] ++
  -- 77 to 102: feed baseline, T_start, last temperature, cycle state, settle timer, fault cause
  [c.feedBaseline.getD 0] ++ be16 (c.tStart.getD 0) ++ be16 (c.lastTemp.getD 0) ++ be32 c.iAcc ++ be16 (c.peak.getD 0) ++
  be32 c.wet ++ be32 c.energy ++ be16 c.missed ++ be16 c.overruns ++ be16 (c.settle.getD 0) ++ [cause] ++
  -- 103 to 131: the held record
  fieldOr 29 (c.heldRecord.map jointLayout) ++
  -- 132 to 140: the row of the share table
  be16 row.demand ++ be16 row.grant ++ [(row.tier.map fun t => BitVec.ofNat 8 t.val).getD 0xFF, bitsByte [row.cap.isSome]] ++
  be16 ((row.cap.map Cap.limit).getD 0) ++ [(row.cap.map fun k => BitVec.ofNat 8 k.claimant.val).getD 0]

/-- The class descriptor in the CLASSLOAD layout, with room for eight trims (37 bytes). -/
def descLayout (d : ClassDesc) : List Byte :=
  let retention : Byte := match d.retention with
    | .low => 0x00
    | .medium => 0x01
    | .high => 0x02
  let trim := fun i : Nat => be16 ((d.trims.getD i 0) % 65536).toNat
  be16 d.classId.toNat ++ be8 d.span.val ++ [retention] ++ be16 d.start ++ be8 d.firstPage ++ be8 d.pageCount ++
    be16 d.liquidus ++ be16 d.maxTemp ++ be16 d.minWet ++ be16 d.kp ++ be16 d.ki ++ be16 d.settle ++
    be8 d.trims.length ++ (List.range 8).flatMap trim

/-- The bytes from 3 on of a READ_CLASS reply. -/
def State.classLayout (s : State) (e : Option EntryIx) : List Byte :=
  let entry := fun e : EntryIx =>
    let x := s.entryAt e
    let bound := fun h : Head => (s.ctxAt h).binding.filter fun b => b.entry = e
    -- 3 to 45: index, state, tag, span, descriptor
    ([0x01, BitVec.ofNat 8 e.val] ++ (match x.body with
      | .invalid => [0x00] ++ List.replicate 40 0
      | .fetching tag _ => [0x01] ++ be16 tag.toNat ++ List.replicate 38 0
      | .resident tag d => [0x02] ++ be16 tag.toNat ++ be8 d.span.val ++ descLayout d)) ++
    -- 46 to 67: users, the heads bound with their variants, recency position, fetch time remaining
    be8 x.users ++ be16 ((allHeads.map fun h => if (bound h).isSome then 2 ^ h.val else 0).sum) ++
    (allHeads.map fun h => BitVec.ofNat 8 (((bound h).map Binding.variant).getD 0)) ++ be8 x.recency ++
    (match x.body with
      | .fetching _ n => be16 n
      | _ => [0x00, 0x00])
  fieldOr 65 (e.map entry) ++
  -- 68 onward: fetch limit, cache-wait list
  be16 s.cache.fetchLimit ++ be8 s.cache.wait.length ++
  s.cache.wait.flatMap fun w => [BitVec.ofNat 8 w.head.val] ++ be16 w.classId.toNat

/-! ### One service (chapters 6 and 7) -/

/-- T_start as a service uses it: supplied by the sample where it is absent (R107). -/
def HeadCtx.origin (c : HeadCtx) (tm : Nat) : Nat := c.tStart.getD tm

/-- The step clock as a service uses it: 0 where a RAMP's origin has just been supplied (R107). -/
def HeadCtx.clockAt (c : HeadCtx) (k : Kind) : Nat := if c.tStart = none ∧ k = .ramp then 0 else c.stepClock

/-- The error T* − T_m of a RAMP, SOAK or FEED service (R109, R110). -/
def State.errorAt (s : State) (h : Head) (k : Kind) (w : StepWord) (tm : Nat) : Int :=
  let start := (s.ctxAt h).origin tm
  let rise := w.param * (s.ctxAt h).clockAt k / 1000
  let target := if k ≠ .ramp then w.target else if start ≤ w.target then min (start + rise) w.target
    else max (start - rise) w.target
  (target : Int) - tm

/-- The ceiling of a service (R113). -/
def State.ceilingAt (s : State) (h : Head) (w : StepWord) : Nat := min w.ceiling (s.configAt h).rating

/-- The integrator accumulator after a service (R111, R115, R116). -/
def State.accAt (s : State) (h : Head) (k : Kind) (w : StepWord) (d : ClassDesc) (tm : Nat) : Nat :=
  let c := s.ctxAt h
  if k = .hold ∨ k = .cool ∨ c.limited = true then c.iAcc
  else (max 0 (min (256 * ((s.configAt h).rating : Int)) (c.iAcc + d.ki * s.errorAt h k w tm))).toNat

/-- The trimmed demand D1 of a RAMP, SOAK or FEED service (R110 to R113). -/
def State.trimmedAt (s : State) (h : Head) (k : Kind) (w : StepWord) (d : ClassDesc) (tm : Nat) : Int :=
  let coupling := ((s.configAt h).neighbours.map fun n => n.coeff * (s.rowAt n.head).grant / 1024).sum
  let trim := d.trims.getD (((s.ctxAt h).binding.map Binding.variant).getD 0) 0
  let u : Int := w.base + (d.kp * s.errorAt h k w tm).tdiv 256 + (s.accAt h k w d tm / 256 : Nat) - coupling
  (u * (1000 + trim)).tdiv 1000

/-- The demand of a service (R113, R115, R116). -/
def State.demandAt (s : State) (h : Head) (k : Kind) (w : StepWord) (d : ClassDesc) (tm : Nat) : Nat :=
  if k = .cool then 0 else if k = .hold then min w.base (s.ceilingAt h w)
  else (max 0 (min (s.ceilingAt h w : Int) (s.trimmedAt h k w d tm))).toNat

/-- The limited flag after a service with a grant (R114, R115, R116). -/
def State.limitedAt (s : State) (h : Head) (k : Kind) (w : StepWord) (d : ClassDesc) (tm grant : Nat) : Bool :=
  if k = .cool then false else if k = .hold then decide (grant < s.demandAt h k w d tm)
  else decide (grant < s.demandAt h k w d tm) ||
    decide ((s.ceilingAt h w : Int) < s.trimmedAt h k w d tm ∧ 0 < s.errorAt h k w tm) ||
    decide (s.trimmedAt h k w d tm < 0 ∧ s.errorAt h k w tm < 0)

/-- The context of a head after a service that has not ended its step (R106 to R108, R111, R114, R117). -/
def State.servedCtx (s : State) (h : Head) (k : Kind) (w : StepWord) (d : ClassDesc) (tm grant : Nat) : HeadCtx :=
  let c := s.ctxAt h
  let gap := (c.sampleMark.map fun m => min (s.now - m) (s.configAt h).staleness).getD 0
  { c with
    lastTemp := some tm, tStart := some (c.origin tm), stepClock := c.clockAt k, peak := some (max (c.peak.getD tm) tm),
    wet := if d.liquidus ≤ tm then min (c.wet + gap) 16000000 else c.wet, sampleMark := some s.now,
    iAcc := s.accAt h k w d tm, limited := s.limitedAt h k w d tm grant, feedOwed := c.feedOwed && k != .feed }

/-- The DRIVE frame of a service (R117, R124, R134). -/
def State.serviceFrame (s : State) (h : Head) (k : Kind) (w : StepWord) (grant : Nat) (source : DriveSource) :
    DriveFrame :=
  { dest := (s.configAt h).drive, head := h, grant, activity := some k, source,
    feedLen := if k = .feed ∧ (s.ctxAt h).feedOwed = true then some w.param else none, cancel := false }

/-- The state after a service of sample `p` whose demand the headroom covers, held at most to the head's own cap, and which
has not ended the step (R97, R123, R124). -/
def State.served (s : State) (h : Head) (p : PendingSample) (k : Kind) (w : StepWord) (d : ClassDesc) : State :=
  let demand := s.demandAt h k w d p.temp
  let g := ((s.rowAt h).cap.map fun c => min demand c.limit).getD demand
  { ((({ s with pointer := h }.modIntake h fun i => { i with slot := none }).modCtx h
      fun _ => s.servedCtx h k w d p.temp g).modRow h fun r => { r with demand, grant := g }) with
    ring := { s.ring with
      drive := placeIn s.ring.drive (s.serviceFrame h k w g (if g = demand then .control else .capped)) } }

/-- The end test of a service (R7, R11): a RAMP whose target has arrived with the sample inside the window, and a COOL whose
sample has fallen to the target. -/
def HeadCtx.stepDone (c : HeadCtx) (k : Kind) (w : StepWord) (tm : Nat) : Bool :=
  let start := c.origin tm
  let rise := w.param * c.clockAt k / 1000
  match k with
  | .ramp => decide ((start ≤ w.target ∧ w.target - start ≤ rise ∧ w.target ≤ tm + w.window) ∨
      (w.target < start ∧ start - w.target ≤ rise ∧ tm ≤ w.target + w.window))
  | .cool => decide (tm ≤ w.target)
  | .soak | .hold | .feed => false

/-- The rows a head at tier `tier` claims from before row `j` (R125): higher tier number first, then higher head number,
each with a grant and of lower priority than the claimant. -/
def State.claimedBefore (s : State) (tier : Tier) (j : Head) : Nat :=
  ((allHeads.filter fun i => (s.rowAt i).tier.any fun u =>
      decide (tier < u) && ((s.rowAt j).tier.any fun v => decide (v < u) || (u = v && decide (j < i)))).map
    fun i => (s.rowAt i).grant).sum

/-- The row of `j` after head `h` at tier `tier` has claimed a shortfall (R125, R126). -/
def State.rowClaimed (s : State) (h : Head) (tier : Tier) (short : Nat) (j : Head) : Row :=
  let r := s.rowAt j
  let left := short - s.claimedBefore tier j
  if (r.tier.any fun v => decide (tier < v)) ∧ 0 < r.grant ∧ 0 < left then
    let keep := r.grant - min r.grant left
    { r with cap := some { limit := (r.cap.map fun c => min c.limit keep).getD keep, claimant := h } }
  else r

/-! ### Matching a load (R36 to R39) -/

/-- A load of class id `c` goes to entry `e` (R36). -/
def State.LoadGoesTo (s : State) (c : ClassId) (e : EntryIx) : Prop :=
  (∃ n, (s.entryAt e).body = .fetching c n) ∨
    ((∀ f n, (s.entryAt f).body ≠ .fetching c n) ∧ (s.entryAt e).body.isResident = true ∧
      (s.entryAt e).body.matchesId c = true ∧ (s.entryAt e).users = 0) ∨
    ((∀ f, (s.entryAt f).body.matchesId c = false) ∧ s.victim = some e)

/-- Entry `f` is another entry than the target `e` and shares a class id with the new range (R37, R39). -/
def State.covered (s : State) (d : ClassDesc) (e f : EntryIx) : Bool :=
  f != e && (s.entryAt f).body.overlaps (clearLow d.classId d.span) d.span

/-- Head `h` is bound to the target or to an entry the load covers. -/
def State.joins (s : State) (d : ClassDesc) (e : EntryIx) (h : Head) : Bool :=
  (s.ctxAt h).binding.any fun b => b.entry = e || s.covered d e b.entry

/-- The state with a load filled into entry `e` and the entries it covers settled (R38, R39, R27). -/
def State.loaded (s : State) (d : ClassDesc) (e : EntryIx) : State :=
  let tag := clearLow d.classId d.span
  let entry := fun f : EntryIx =>
    let x := s.entryAt f
    let back := if x.recency < (s.entryAt e).recency then x.recency + 1 else x.recency
    if f = e then { body := .resident tag d, users := (allHeads.filter (s.joins d e)).length, recency := 0 }
    else if s.covered d e f then { body := .invalid, users := 0, recency := back }
    else { x with recency := back }
  let context := fun h : Head =>
    let c := s.ctxAt h
    if s.joins d e h then
      { c with binding := some { entry := e, variant := variantOf (s.requestedId h) tag },
               reqs := c.reqs.map fun r => { r with bound := true } }
    else c
  { s with cache := { s.cache with entries := Vector.ofFn entry }, ctx := Vector.ofFn context }

/-- A command changes nothing but one ring counter and what the Notice Unit makes of its rise (R165, R170): at most the
RING flag and pending bit, and an ATTENTION in the general queue. -/
def State.OnlyCounts (s t : State) (cs : Counters) : Prop :=
  t = { s with ring := { s.ring with counters := cs, general := t.ring.general }, notices := t.notices } ∧
    t.notices.enables = s.notices.enables ∧
    (t.ring.general = s.ring.general ∨ ∃ f : Frame, f.kind = 0x07 ∧ t.ring.general = s.ring.general ++ [f]) ∧
    (cs ≠ s.ring.counters → t.notices.detected = { s.notices.detected with ring := true }) ∧
    (cs = s.ring.counters → t.notices = s.notices)

/-- A count one higher, saturating at 65535 (R165). -/
def raised (n : Nat) : Nat := min (n + 1) 65535

/-- The counters with one more foreign frame. -/
def State.foreignCounted (s : State) : Counters :=
  { s.ring.counters with foreign := raised s.ring.counters.foreign }

/-- Head `h` with sample `p` is the next to be served: of the heads with an occupied slot it is the first after the
pointer, in ascending number modulo 16 (R97). -/
abbrev State.NextToServe (s : State) (h : Head) (p : PendingSample) : Prop :=
  (s.intakeAt h).slot = some p ∧
    ∀ j : Head, (s.intakeAt j).slot.isSome = true → (h - s.pointer - 1).val ≤ (j - s.pointer - 1).val

/-- The source node and tag of an answered frame: a REQUEST, CARRIER, RELEASE or CLASSLOAD (R160). -/
def answeredFrom : Instr → Option (Byte × Byte)
  | .identify src tag _ | .setStation src tag _ | .setBudget src tag _ | .setHead src tag _ | .readHead src tag _
  | .writeSteps src tag _ | .readSteps src tag _ | .readClass src tag _ | .flushClass src tag _ | .halt src tag _
  | .clearFault src tag _ | .readRecords src tag _ | .setNotices src tag _ | .readStatus src tag _
  | .resetStation src tag _ | .unknownRequest src tag _ | .carrier src tag _ | .release src tag _
  | .classload src tag _ => some (src, tag)
  | .sample _ _ | .dstat _ _ | .purgeOk _ _ | .purgeLost _ _ | .frameArrival _ | .ringOutSend | .interlockOpening
  | .interlockClosing | .deviceReset | .deviceResetEnd _ _ | .stalenessExpiry _ | .dwellExpiry _ | .stepTimeout _
  | .fetchTimerExpiry _ | .settleTimerExpiry _ | .service => none

/-- The source node of a command that is a consumed frame, answered or not (R156). -/
def consumedFrom : Instr → Option Byte
  | .sample src _ | .dstat src _ | .purgeOk src _ | .purgeLost src _ => some src
  | c => (answeredFrom c).map Prod.fst

end Sys2Proof.Machine
end

