-- ==== Sys2Proof/Certificates/Slice0/Obligations.lean ====
section
/-! DEFINITION. The statements for the provers, by their rules. `s.Takes src` is the hypothesis under which an answered
frame from node `src` is taken (R156, R160); `s.Taking` says that device reset is not in force and that the model's own
transient fields are clear; `s.Settled` that nothing is due (R52, R60). A statement that a command has a result says that
`exec` answers `.next t`, and what `t` is. -/

open Sys2Proof Sys2Proof.Machine

/-! ### The step, the queue and time -/

/-- A step takes the command at the front of the queue and runs it on the state with the queue's rest. -/
def Obligations.StepTakesFront : Prop :=
  ∀ (s : State) (c : Instr) (rest : List Instr), s.pending = c :: rest → step s = exec c { s with pending := rest }

/-- With an empty queue one millisecond passes (log entry 2): every running timer counts down, the step clocks of HEATING
heads count up to 16,000,000 (R4), and exactly the expiries that are due are queued (R31, R58, R68, R95). -/
def Obligations.EmptyQueuePassesTime : Prop :=
  ∀ s : State, s.pending = [] → ∃ t, step s = .next t ∧ t.now = s.now + 1 ∧
    (∀ h, (t.ctxAt h).settle = (s.ctxAt h).settle.map (· - 1)) ∧
    (∀ h, (t.intakeAt h).staleTimer = (s.intakeAt h).staleTimer.map (· - 1)) ∧
    (∀ h, (s.ctxAt h).state = .heating → (t.ctxAt h).stepTimer = (s.ctxAt h).stepTimer.map (· - 1) ∧
      (t.ctxAt h).stepClock = min ((s.ctxAt h).stepClock + 1) 16000000) ∧
    (∀ h, (s.ctxAt h).state ≠ .heating → (t.ctxAt h).stepTimer = (s.ctxAt h).stepTimer ∧
      (t.ctxAt h).stepClock = (s.ctxAt h).stepClock) ∧
    (∀ e tag n, (s.entryAt e).body = .fetching tag n → (t.entryAt e).body = .fetching tag (n - 1)) ∧
    (∀ c, c ∈ t.pending ↔
      (∃ h, c = .stalenessExpiry h ∧ (t.ctxAt h).state = .heating ∧ (t.intakeAt h).staleTimer = some 0) ∨
      (∃ h, c = .dwellExpiry h ∧ (t.ctxAt h).state = .heating ∧ (t.ctxAt h).stepTimer = some 0 ∧
        (t.runningKind h = some .soak ∨ t.runningKind h = some .hold)) ∨
      (∃ h, c = .stepTimeout h ∧ (t.ctxAt h).state = .heating ∧ (t.ctxAt h).stepTimer = some 0 ∧
        t.runningKind h ≠ some .soak ∧ t.runningKind h ≠ some .hold) ∨
      (∃ h, c = .settleTimerExpiry h ∧ (t.ctxAt h).settle = some 0) ∨
      (∃ e tag, c = .fetchTimerExpiry e ∧ (t.entryAt e).body = .fetching tag 0)) ∧
    t.store = s.store ∧ t.carriers = s.carriers ∧ t.config = s.config ∧ t.share = s.share ∧ t.queue = s.queue ∧
    t.ring = s.ring ∧ t.notices = s.notices ∧ t.budget = s.budget

/-- No command touches the queue of waiting commands or the time base, and only the end of device reset touches the strap
pins and the own address (R152). The queue is the model's own (log entry 24), and that DEVICE_RESET leaves it, the time
base and the address as they are is the model's reading (log entry 9). -/
def Obligations.CommandsKeepQueueAndTime : Prop :=
  ∀ (c : Instr) (s t : State), exec c s = .next t → t.pending = s.pending ∧ t.now = s.now ∧
    ((∀ strap ilk, c ≠ .deviceResetEnd strap ilk) → t.pins.strap = s.pins.strap ∧ t.ring.own = s.ring.own)

/-- Every well-formed command answers a next state in every state; a term that is not well formed stops only where it is an
UNKNOWN_REQUEST that spells another row (log entry 23). -/
def Obligations.CommandsComplete : Prop :=
  ∀ (c : Instr) (s : State), (∃ t, exec c s = .next t) ∨
    (exec c s = .fault .spellsAnotherRow ∧ c.wellFormed = false ∧
      ∃ src tag payload, c = .unknownRequest src tag payload ∧ unassignedPayload payload = false)

/-! ### Resets -/

/-- DEVICE_RESET sets every block to its [POR] values (R1, R25, R45, R58, R64, R66, R90, R120, R139, R151, R168); the
interlock state, the address and the pins wait for its end, and the queue and the time base go on (log entry 9).
DEVICE_RESET_END samples the strap and the ILK level (R45, R152). While it holds, no command but its own two changes
anything but the level last seen on the ILK pin (R88; the model's reading, log entry 8). -/
def Obligations.DeviceResetClears : Prop :=
  (∀ s : State, ∃ t, exec .deviceReset s = .next t ∧
    t.resetHeld = true ∧ t.store = [] ∧ (∀ a, StepStore.read t.store a = {}) ∧
    (∀ e, t.entryAt e = { body := .invalid, users := 0, recency := e.val }) ∧ t.cache.wait = [] ∧
    t.cache.fetchLimit = 100 ∧ t.carriers = [] ∧
    (∀ h, t.configAt h = { enable := false, sensor := 0, drive := 0, rating := 0, neighbours := [], staleness := 20 }) ∧
    (∀ h, (t.ctxAt h).state = .disabled ∧ (t.ctxAt h).current = none ∧ (t.ctxAt h).next = none ∧
      (t.ctxAt h).binding = none ∧ (t.ctxAt h).reqs = none ∧ (t.ctxAt h).step = none ∧ (t.ctxAt h).prefetch = .empty ∧
      (t.ctxAt h).stepClock = 0 ∧ (t.ctxAt h).stepTimer = none ∧ (t.ctxAt h).feedBaseline = none ∧
      (t.ctxAt h).feedOwed = false ∧ (t.ctxAt h).tStart = none ∧ (t.ctxAt h).lastTemp = none ∧ (t.ctxAt h).iAcc = 0 ∧
      (t.ctxAt h).limited = false ∧ (t.ctxAt h).peak = none ∧ (t.ctxAt h).wet = 0 ∧ (t.ctxAt h).energy = 0 ∧
      (t.ctxAt h).missed = 0 ∧ (t.ctxAt h).overruns = 0 ∧ (t.ctxAt h).sampleMark = none ∧
      (t.ctxAt h).dstatMark = none ∧ (t.ctxAt h).settle = none ∧ (t.ctxAt h).cause = none ∧
      (t.ctxAt h).heldRecord = none) ∧
    (∀ h, t.intakeAt h = { slot := none, lastSeq := none, staleTimer := none, lastFeed := none }) ∧
    t.minStrength = 32 ∧ t.pointer = 15 ∧ t.budget = 0 ∧
    (∀ h, t.rowAt h = { demand := 0, grant := 0, tier := none, cap := none }) ∧ t.queue = [] ∧
    t.ring.cc = 0 ∧ t.ring.forward = [] ∧ t.ring.drive = [] ∧ t.ring.general = [] ∧ t.ring.wire = none ∧
    t.ring.lastSent = .forward ∧ t.ring.counters = { crc := 0, overflow := 0, dropped := 0, foreign := 0 } ∧
    t.notices = { detected := {}, enables := {}, pending := {}, reported := {} } ∧
    t.interlock = s.interlock ∧ t.ring.own = s.ring.own ∧ t.pins = s.pins ∧ t.pending = s.pending ∧ t.now = s.now) ∧
  (∀ (s : State) (strap : Byte) (ilk : Bool), exec (.deviceResetEnd strap ilk) s = .next
    (if s.resetHeld then
      { s with resetHeld := false, pins := { ilk, strap }, interlock := ilk,
               ring := { s.ring with own := if strap = 0 ∨ strap = 255 then 1 else strap } }
    else s)) ∧
  ∀ (c : Instr) (s : State), s.resetHeld = true → c.wellFormed = true → c ≠ .deviceReset →
    (∀ strap ilk, c ≠ .deviceResetEnd strap ilk) →
    exec c s = .next (match c with
      | .interlockOpening => { s with pins := { s.pins with ilk := false } }
      | .interlockClosing => { s with pins := { s.pins with ilk := true } }
      | _ => s)

/-- The state after reset holds every law of the part, and nothing is due in it. -/
def Obligations.ResetIsLawful : Prop := State.reset.Lawful ∧ State.reset.Settled ∧ State.reset.Taking

/-- RESET_STATION (R164, R44, R63, R89, R90, R120, R149, R151, R168): a STOP waits for every head that was HEATING,
the drive slots hold STOP frames alone, every block takes its [SR] values, and the REPLY is the only frame of the
general queue. A longer payload is refused LENGTH and changes nothing else. (That the step address is then 0, and that
a STOP replaces a waiting STOP with its feed cancel, is the model's choice, log entries 14 and 31.) -/
def Obligations.ResetStationEmpties : Prop :=
  ∀ (s : State) (src tag : Byte), s.Takes src →
    (∀ body, body ≠ [] → exec (.resetStation src tag body) s = .next (s.replied src tag [0x01, 0x0F, 0x04])) ∧
    ∃ t, exec (.resetStation src tag []) s = .next t ∧ (s.OneDriveEach → s.RestingFramesStop →
      ∀ f ∈ t.ring.drive, f.source = .stop) ∧
    t.ring.general = [s.replyTo src tag [0x01, 0x0F, 0x00]] ∧
    (∀ h, (s.ctxAt h).state = .heating → ∃ f ∈ t.ring.drive, f.head = h ∧ f.source = .stop ∧ f.grant = 0 ∧
      f.activity = none ∧ f.feedLen = none ∧ f.cancel = decide (s.runningKind h = some .feed) ∧
      f.dest = (s.configAt h).drive) ∧
    (∀ f ∈ t.ring.drive, f ∈ s.ring.drive ∨ (f.source = .stop ∧ (s.ctxAt f.head).state = .heating)) ∧
    t.ring.counters = {} ∧ t.ring.forward = s.ring.forward ∧ t.ring.own = s.ring.own ∧ t.ring.cc = s.ring.cc ∧
    t.ring.lastSent = s.ring.lastSent ∧ t.ring.wire = s.ring.wire ∧
    (∀ h, t.ctxAt h = { state := if (s.configAt h).enable then .idle else .disabled }) ∧
    (∀ h, t.intakeAt h = {}) ∧ (∀ h, t.rowAt h = {}) ∧ t.pointer = 15 ∧
    (∀ e, t.entryAt e = { body := .invalid, users := 0, recency := e.val }) ∧ t.cache.wait = [] ∧ t.carriers = [] ∧
    t.queue = [] ∧ t.notices = { detected := {}, enables := s.notices.enables, pending := {}, reported := {} } ∧
    t.cache.fetchLimit = s.cache.fetchLimit ∧ t.store = s.store ∧ t.config = s.config ∧ t.interlock = s.interlock ∧
    t.minStrength = s.minStrength ∧ t.budget = s.budget ∧ t.pins = s.pins ∧ t.resetHeld = false

/-! ### Invariants that every step keeps -/

/-- Every step keeps the laws of the part (R1, R3, R24, R26, R28, R32, R39, R45, R48, R50, R60, R66, R140, R142). -/
def Obligations.LawfulKept : Prop := ∀ s t : State, s.Lawful → step s = .next t → t.Lawful

/-- A head never waits in ARMING with all five requirements true, and a carrier that can close has closed: every step that
begins so ends so (R52, R60). -/
def Obligations.SettledKept : Prop := ∀ s t : State, s.Lawful → s.Settled → step s = .next t → t.Settled

/-- The sum of the grants never exceeds the station budget, and no grant its demand (R123). -/
def Obligations.PowerLawsKept : Prop :=
  ∀ s t : State, s.PowerWithinBudget ∧ s.GrantsWithinDemands → step s = .next t →
    t.PowerWithinBudget ∧ t.GrantsWithinDemands

/-- A head that is not HEATING has demand 0, grant 0, no tier and no cap, names no claimant and is named by none (R132); a
head's integrator accumulator stays between 0 and 256 times its rating (R111). The premise is that running heads are bound
to resident classes. -/
def Obligations.HeatingLawsKept : Prop :=
  ∀ s t : State, s.HeatingRuns → step s = .next t → (s.RestingRowsEmpty → t.RestingRowsEmpty) ∧
    (s.IntegratorsBounded → t.IntegratorsBounded)

/-- The recency positions of the eight entries stay a permutation of 0 to 7 (R27), and no class id comes to match more than
one Class Cache entry that is not INVALID (R39). -/
def Obligations.CacheLawsKept : Prop :=
  ∀ s t : State, step s = .next t → (s.RecencyPermutation → t.RecencyPermutation) ∧ (s.OneMatch → t.OneMatch)

/-- The outbound drive slots hold at most one DRIVE frame per head (R157), the Record Queue, the forward buffer and the
general queue never hold more than they can (R139, R155, R158), and the four counters stay within 65535 (R165). -/
def Obligations.BuffersBounded : Prop :=
  ∀ s t : State, step s = .next t → (s.OneDriveEach → t.OneDriveEach) ∧ (s.QueueBounded → t.QueueBounded) ∧
    (s.RingBounded → t.RingBounded) ∧ (s.CountersBounded → t.CountersBounded)

/-- The Step Store keeps its canonical form, its address range and its clamped words (R1, R3), and no command but
WRITE_STEPS and DEVICE_RESET, however it arrives, changes it. -/
def Obligations.StoreKept : Prop :=
  (∀ s t : State, s.StoreSound → step s = .next t → t.StoreSound) ∧
    ∀ (c : Instr) (s t : State), exec c s = .next t → c ≠ .deviceReset → (∀ src tag body, c ≠ .writeSteps src tag body) →
      (∀ bytes, c ≠ .frameArrival bytes) → t.store = s.store

/-! ### Frames -/

/-- A frame is read back from its bytes (R153, R167) and a step word from its 14 bytes (R2, R167), with every field at every
value. -/
def Obligations.FramesReadBack : Prop :=
  (∀ f : Frame, f.payload.length ≤ 512 → parseFrame f.bytes = some f ∧ f.bytes.length = f.payload.length + 8) ∧
  ∀ (w : StepWord) (before after : List Byte), w.target < 65536 → w.window < 65536 → w.param < 65536 →
    w.limit < 65536 → w.ceiling < 65536 → w.base < 65536 →
    (stepWordBytes w).length = 14 ∧ stepWordAt (before ++ stepWordBytes w ++ after) before.length = w

/-- The frame that spells a well-formed command reads as that command (R156, R161, R167). -/
def Obligations.CommandsReadBack : Prop :=
  ∀ (dest : Byte) (c : Instr) (f : Frame), c.wellFormed = true → frameOf dest c = some f →
    commandOf f = some c ∧ f.payload.length ≤ 512 ∧ f.dest = dest ∧ takenKind f.kind = true

/-- A frame addressed to the part is taken by the row it spells (R154, R156). -/
def Obligations.ArrivalTakesRow : Prop :=
  ∀ (s : State) (c : Instr) (f : Frame), c.wellFormed = true → frameOf s.ring.own c = some f → f.src ≠ s.ring.own →
    exec (.frameArrival f.bytes) s = exec c s

/-- What becomes of the other frames at ring-in (R153 to R156): a frame that fails a check is dropped and counted, the
part's own is stripped, a frame for another node is forwarded byte for byte or its overflow counted, and a broadcast is
forwarded, or its overflow counted, and, where its kind is taken, consumed as well, the rises of both in one report (R170).
(That bytes too few or too many for a frame fail R153 is the model's reading, log entry 13, as is the one report at the end
of the row's work, log entry 10.) -/
def Obligations.ArrivalElsewhere : Prop :=
  ∀ (s : State) (bytes : List Byte), s.Taking → s.CountersBounded →
    (parseFrame bytes = none → ∃ t, exec (.frameArrival bytes) s = .next t ∧
      s.OnlyCounts t { s.ring.counters with crc := raised s.ring.counters.crc }) ∧
    ∀ f, parseFrame bytes = some f →
      (f.src = s.ring.own → exec (.frameArrival bytes) s = .next s) ∧
      (f.src ≠ s.ring.own → f.dest = s.ring.own → commandOf f = none → ∃ t, exec (.frameArrival bytes) s = .next t ∧
        s.OnlyCounts t s.foreignCounted) ∧
      (f.src ≠ s.ring.own → f.dest ≠ s.ring.own →
        let s1 := { s with ring := { s.ring with forward := s.ring.forward ++ [bytes] } }
        (s.ring.forward.length < 4 → f.dest ≠ 255 ∨ takenKind f.kind = false →
          exec (.frameArrival bytes) s = .next s1) ∧
        (s.ring.forward.length < 4 → f.dest = 255 → takenKind f.kind = true → ∀ c, commandOf f = some c →
          exec (.frameArrival bytes) s = exec c s1) ∧
        (s.ring.forward.length = 4 → f.dest ≠ 255 ∨ takenKind f.kind = false → ∃ t,
          exec (.frameArrival bytes) s = .next t ∧
          s.OnlyCounts t { s.ring.counters with overflow := raised s.ring.counters.overflow }) ∧
        (s.ring.forward.length = 4 → f.dest = 255 → takenKind f.kind = true → ∀ c, commandOf f = some c →
          exec (.frameArrival bytes) s = exec c { s with
            ring := { s.ring with
              counters := { s.ring.counters with overflow := raised s.ring.counters.overflow } },
            notices := { s.notices with
              reported := { s.notices.reported with ring := decide (s.ring.counters.overflow < 65535) } } }) ∧
        (s.ring.forward.length = 4 → f.dest = 255 → takenKind f.kind = true → commandOf f = none → ∃ t,
          exec (.frameArrival bytes) s = .next t ∧
          s.OnlyCounts t { s.foreignCounted with overflow := raised s.ring.counters.overflow }))

/-- RING_OUT_SEND chooses among the three sources (R159): of a DRIVE frame and a forwarded frame that both wait, the one
the alternation marker does not name; the general queue where neither waits. A DRIVE frame goes to its drive node with tag 0
and the eight bytes of R167. (It is sent where it is commanded: the model's choice, log entries 6 and 7.) -/
def Obligations.RingOutAlternates : Prop :=
  ∀ s : State, s.resetHeld = false →
    (∀ d ds, s.ring.drive = d :: ds → s.ring.forward = [] ∨ s.ring.lastSent = .forward →
      exec .ringOutSend s = .next { s with ring := { s.ring with
        drive := ds,
        wire := some ({ dest := d.dest, src := s.ring.own, kind := 0x12, tag := 0, payload := driveLayout d } : Frame).bytes,
        lastSent := .drive } }) ∧
    (∀ b bs, s.ring.forward = b :: bs → s.ring.drive = [] ∨ s.ring.lastSent = .drive →
      exec .ringOutSend s = .next { s with ring := { s.ring with
        forward := bs, wire := some b, lastSent := .forward } }) ∧
    (s.ring.drive = [] → s.ring.forward = [] → ∀ g gs, s.ring.general = g :: gs →
      exec .ringOutSend s = .next { s with ring := { s.ring with general := gs, wire := some g.bytes } }) ∧
    (s.ring.drive = [] → s.ring.forward = [] → s.ring.general = [] →
      exec .ringOutSend s = .next { s with ring := { s.ring with wire := none } })

/-! ### Acceptance of answered frames -/

/-- Every answered frame that is taken gets exactly one REPLY, last in the general queue, to its source node, with its tag
and the part's own address as source (R160). -/
def Obligations.RequestsAnsweredOnce : Prop :=
  ∀ (c : Instr) (s : State) (src tag : Byte), answeredFrom c = some (src, tag) → c.wellFormed = true → s.Takes src →
    ∃ t earlier f, exec c s = .next t ∧ t.ring.general = earlier ++ [f] ∧ t.ring.reserved = false ∧
      f.kind = 0x02 ∧ f.dest = src ∧ f.src = s.ring.own ∧ f.tag = tag ∧ 3 ≤ f.payload.length ∧
      ((∀ body, c ≠ .resetStation src tag body) →
        earlier.filter (fun g => g.kind = 0x02) = s.ring.general.filter fun g => g.kind = 0x02)

/-- An answered frame that finds no free place in the general queue is discarded unanswered, and the dropped request counter
rises (R160, R165); a consumed frame whose source is 0 or 255 is discarded, and the foreign frame counter rises (R156).
Nothing else changes but the RING cause. -/
def Obligations.FramesNotTaken : Prop :=
  (∀ (c : Instr) (s : State) (src tag : Byte), answeredFrom c = some (src, tag) → c.wellFormed = true → s.Taking →
    s.CountersBounded → Config.generalCapacity ≤ s.ring.general.length →
    ∃ t, exec c s = .next t ∧ s.OnlyCounts t { s.ring.counters with dropped := raised s.ring.counters.dropped } ∧
      t.ring.general = s.ring.general) ∧
  ∀ (c : Instr) (s : State) (src : Byte), consumedFrom c = some src → src = 0 ∨ src = 255 → s.Taking →
    s.CountersBounded →
    (∀ tag payload, c = .unknownRequest src tag payload → unassignedPayload payload = true) →
    ∃ t, exec c s = .next t ∧ s.OnlyCounts t s.foreignCounted

/-- A payload of the wrong length is answered LENGTH and changes nothing but the reply (R20, R22, R24, R42, R43, R46, R55,
R65, R82, R85, R86, R121, R145, R161 to R164, R174, R175). -/
def Obligations.WrongLengthsRefused : Prop :=
  ∀ (s : State) (src tag : Byte) (body : List Byte), s.Takes src →
    (body.length ≠ 0 → exec (.identify src tag body) s = .next (s.replied src tag [0x01, 0x01, 0x04])) ∧
    (body.length ≠ 4 → exec (.setStation src tag body) s = .next (s.replied src tag [0x01, 0x02, 0x04])) ∧
    (body.length ≠ 2 → exec (.setBudget src tag body) s = .next (s.replied src tag [0x01, 0x03, 0x04])) ∧
    (body.length ≠ 9 + 3 * u8At body 8 ∨ 2 < u8At body 8 →
      exec (.setHead src tag body) s = .next (s.replied src tag [0x01, 0x04, 0x04])) ∧
    (body.length ≠ 1 → exec (.readHead src tag body) s = .next (s.replied src tag [0x01, 0x05, 0x04])) ∧
    (body.length ≠ 3 + 14 * u8At body 2 ∨ u8At body 2 = 0 ∨ 16 < u8At body 2 →
      exec (.writeSteps src tag body) s = .next (s.replied src tag [0x01, 0x06, 0x04])) ∧
    (body.length ≠ 3 ∨ u8At body 2 = 0 ∨ 16 < u8At body 2 →
      exec (.readSteps src tag body) s = .next (s.replied src tag [0x01, 0x07, 0x04])) ∧
    (body.length ≠ 3 → exec (.readClass src tag body) s = .next (s.replied src tag [0x01, 0x08, 0x04])) ∧
    (body.length ≠ 3 → exec (.flushClass src tag body) s = .next (s.replied src tag [0x01, 0x09, 0x04])) ∧
    (body.length ≠ 2 → exec (.halt src tag body) s = .next (s.replied src tag [0x01, 0x0A, 0x04])) ∧
    (body.length ≠ 1 → exec (.clearFault src tag body) s = .next (s.replied src tag [0x01, 0x0B, 0x04])) ∧
    (body.length ≠ 1 → exec (.readRecords src tag body) s = .next (s.replied src tag [0x01, 0x0C, 0x04])) ∧
    (body.length ≠ 1 → exec (.setNotices src tag body) s = .next (s.replied src tag [0x01, 0x0D, 0x04])) ∧
    (body.length ≠ 1 → exec (.readStatus src tag body) s = .next (s.replied src tag [0x01, 0x0E, 0x04])) ∧
    (body.length ≠ 0 → exec (.resetStation src tag body) s = .next (s.replied src tag [0x01, 0x0F, 0x04])) ∧
    (body.length ≠ 5 + 5 * u8At body 4 ∨ u8At body 4 = 0 ∨ 16 < u8At body 4 →
      exec (.carrier src tag body) s = .next (s.replied src tag [0x03, 0x00, 0x04])) ∧
    (body.length ≠ 4 → exec (.release src tag body) s = .next (s.replied src tag [0x04, 0x00, 0x04])) ∧
    (body.length ≠ 21 + 2 * u8At body 20 ∨ u8At body 20 ≠ 2 ^ u8At body 2 →
      exec (.classload src tag body) s = .next (s.replied src tag [0x05, 0x00, 0x04]))

/-! ### The station: IDENTIFY, unknown requests, SET_STATION, notices, status -/

/-- IDENTIFY answers vendor 0A3Ch, part 1016h, revision 1, the own address and the capacities, and changes nothing; a longer
payload is refused LENGTH (R163). -/
def Obligations.IdentifyReports : Prop :=
  ∀ (s : State) (src tag : Byte), s.Takes src →
    exec (.identify src tag []) s = .next (s.replied src tag
      ([0x01, 0x01, 0x00] ++ [0x0A, 0x3C, 0x10, 0x16, 0x01] ++ [s.ring.own] ++ [16, 8] ++ [0x04, 0x00] ++ [32])) ∧
    ∀ body, body ≠ [] → exec (.identify src tag body) s = .next (s.replied src tag [0x01, 0x01, 0x04])

/-- A REQUEST with an unassigned code is refused UNKNOWN_REQUEST, one with no payload LENGTH; neither changes anything but
the reply (R161; the code 00h in the reply to an empty request is the model's reading, log entry 12). -/
def Obligations.UnknownRequestsRefused : Prop :=
  ∀ (s : State) (src tag code : Byte) (rest : List Byte), s.Takes src →
    (code.toNat = 0 ∨ 15 < code.toNat →
      exec (.unknownRequest src tag (code :: rest)) s = .next (s.replied src tag [0x01, code, 0x05])) ∧
    exec (.unknownRequest src tag []) s = .next (s.replied src tag [0x01, 0x00, 0x04])

/-- SET_STATION stores the cell controller address, the fetch limit held to 10 to 1000 ms and the minimum strength, then
announces pending causes; a wrong length is refused LENGTH and the address 255 RANGE (R162, R173). -/
def Obligations.SetStationStores : Prop :=
  ∀ (s : State) (src tag cc f1 f0 strength : Byte), s.Takes src →
    (∀ body, body.length ≠ 4 → exec (.setStation src tag body) s = .next (s.replied src tag [0x01, 0x02, 0x04])) ∧
    (cc = 255 → exec (.setStation src tag [cc, f1, f0, strength]) s = .next (s.replied src tag [0x01, 0x02, 0x03])) ∧
    (cc ≠ 255 →
      let limit := max 10 (min (256 * f1.toNat + f0.toNat) 1000)
      let s1 := { s with ring := { s.ring with cc }, cache := { s.cache with fetchLimit := limit },
                         minStrength := strength.toNat }
      exec (.setStation src tag [cc, f1, f0, strength]) s = .next
        ((if s1.mayAnnounce then s1.announced else s1).replied src tag
          ([0x01, 0x02, 0x00, cc] ++ be16 limit ++ [strength])))

/-- SET_NOTICES replaces the enable flags, announces pending causes, and answers the flags as they then stand, with whether
an ATTENTION was placed; a wrong length is refused LENGTH (R173, R174). -/
def Obligations.SetNoticesStores : Prop :=
  ∀ (s : State) (src tag b : Byte), s.Takes src →
    let enables : Causes :=
      { records := b.getLsbD 0, fault := b.getLsbD 1, claim := b.getLsbD 2, ring := b.getLsbD 3 }
    let s1 := { s with notices := { s.notices with enables } }
    let s2 := if s1.mayAnnounce then s1.announced else s1
    (∀ body, body.length ≠ 1 → exec (.setNotices src tag body) s = .next (s.replied src tag [0x01, 0x0D, 0x04])) ∧
    exec (.setNotices src tag [b]) s = .next (s2.replied src tag ([0x01, 0x0D, 0x00] ++ causeBits enables ++
      causeBits s.notices.detected ++ causeBits s2.notices.pending ++ [if s1.mayAnnounce then 1 else 0]))

/-- READ_STATUS answers the counters, the flags, the queue, the faults, the caps, the budget, the interlock and the
addresses as they stand; with the clear option the counters become 0 and the RING flag and pending bit are cleared; a
wrong length is refused LENGTH (R175). A broadcast READ_STATUS with the clear option whose own forward offer overflows
answers the overflow and clears it with the rest, and RING is neither present nor pending nor announced after it (R155,
R166, R170; that the offer and the request are one operation is the model's reading, log entry 10). -/
def Obligations.ReadStatusReports : Prop :=
  ∀ (s : State) (src tag b : Byte), s.Takes src →
    let s1 := if b.getLsbD 0 then
        { s with ring := { s.ring with counters := { crc := 0, overflow := 0, dropped := 0, foreign := 0 } },
                 notices := { s.notices with detected := { s.notices.detected with ring := false },
                                             pending := { s.notices.pending with ring := false } } }
      else s
    let reply := fun overflow : Nat => [0x01, 0x0E, 0x00] ++ be16 s.ring.counters.crc ++ be16 overflow ++
      be16 s.ring.counters.dropped ++ be16 s.ring.counters.foreign ++ causeBits s.notices.detected ++
      causeBits s.notices.enables ++ causeBits s.notices.pending ++ be8 s.queue.length ++ be8 s.recordsWaiting ++
      be16 ((allHeads.map fun h => if (s.ctxAt h).state = .faulted then 2 ^ h.val else 0).sum) ++
      (allHeads.map fun h => BitVec.ofNat 8 (causeCode (s.ctxAt h).cause)) ++
      be8 (allHeads.filter fun h => (s.rowAt h).cap.isSome).length ++ be16 s.budget ++ be16 s.grantSum ++
      [if s.interlock then 1 else 0, s.ring.own, s.ring.cc]
    (∀ body, body.length ≠ 1 → exec (.readStatus src tag body) s = .next (s.replied src tag [0x01, 0x0E, 0x04])) ∧
    exec (.readStatus src tag [b]) s = .next (s1.replied src tag (reply s.ring.counters.overflow)) ∧
    (∀ n, (reply n).length = 42) ∧
    ∀ f, parseFrame f.bytes = some f → commandOf f = some (.readStatus src tag [b]) → f.src ≠ s.ring.own → f.dest = 255 →
      f.dest ≠ s.ring.own → s.ring.forward.length = 4 → b.getLsbD 0 = true →
      exec (.frameArrival f.bytes) s = .next (s1.replied src tag (reply (raised s.ring.counters.overflow)))

/-- The onset of the RING cause, at a frame that fails its CRC (R165, R169 to R172): an enabled cause is announced by one
ATTENTION where the cell controller address is set and a place is free, and is pending otherwise. The same for the onsets
of every cause that a command brings, RECORDS, FAULT and CLAIM among them: all its enabled onsets are announced by one
ATTENTION with the causes present and the causes pending after it, or become pending with those that are not enabled; a
cause that went absent is pending no more. (That a command makes one report is the model's reading, log entry 11.) -/
def Obligations.OnsetsAnnounced : Prop :=
  (∀ (s : State) (bytes : List Byte), s.Taking → parseFrame bytes = none → s.ring.counters.crc < 65535 →
    s.notices.detected.ring = false →
    let s1 := { s with
      ring := { s.ring with counters := { s.ring.counters with crc := s.ring.counters.crc + 1 } },
      notices := { s.notices with detected := { s.notices.detected with ring := true } } }
    let s2 := { s1 with notices := { s1.notices with pending := { s1.notices.pending with ring := true } } }
    exec (.frameArrival bytes) s = .next
      (if s.notices.enables.ring = true ∧ s.ring.cc ≠ 0 ∧ s.ring.general.length < 8 then s1.announced else s2)) ∧
  ∀ (c : Instr) (s t : State), s.Lawful → s.resetHeld = false → exec c s = .next t →
    (∀ bytes, c ≠ .frameArrival bytes) → c ≠ .ringOutSend → c ≠ .deviceReset →
    (∀ src tag body, c ≠ .setStation src tag body ∧ c ≠ .setNotices src tag body ∧ c ≠ .readStatus src tag body ∧
      c ≠ .resetStation src tag body) →
    let n := s.notices
    let onsets := t.notices.detected.diff n.detected
    let waiting := (n.pending.diff (n.detected.diff t.notices.detected)).union (onsets.diff n.enables)
    let after := waiting.diff (t.notices.detected.inter n.enables)
    let attentions := fun u : State => u.ring.general.filter fun f => f.kind = 0x07
    let frame : Frame := { dest := s.ring.cc, src := s.ring.own, kind := 0x07, tag := 0,
                           payload := causeBits t.notices.detected ++ causeBits after }
    t.notices.enables = n.enables ∧
    (onsets.inter n.enables = {} → attentions t = attentions s ∧ t.notices.pending = waiting) ∧
    (onsets.inter n.enables ≠ {} →
      (attentions t = attentions s ++ [frame] ∧ t.notices.pending = after ∧ s.ring.cc ≠ 0) ∨
      (attentions t = attentions s ∧ t.notices.pending = waiting.union (onsets.inter n.enables) ∧
        (s.ring.cc = 0 ∨ t.ring.general.length = 8)))

/-! ### The Step Store -/

/-- WRITE_STEPS writes the clamped words at consecutive addresses and answers the number of clamped words; a run past
address 1023 is refused RANGE, one that touches a locked page LOCKED, a count or length that is wrong LENGTH, and none of
these writes a word (R3, R19, R20). -/
def Obligations.WriteStepsWrites : Prop :=
  ∀ (s : State) (src tag : Byte) (start : Nat) (ws : List StepWord), s.Takes src → start < 65536 → 1 ≤ ws.length →
    ws.length ≤ 16 →
    (∀ w ∈ ws, w.target < 65536 ∧ w.window < 65536 ∧ w.param < 65536 ∧ w.limit < 65536 ∧ w.ceiling < 65536 ∧
      w.base < 65536) →
    let c := Instr.writeSteps src tag (be16 start ++ be8 ws.length ++ ws.flatMap wordLayout)
    let clamped := fun w : StepWord =>
      { w with
        target := min w.target 16000, window := min w.window 1000, ceiling := min w.ceiling 2500, base := min w.base 2500,
        param := if w.code = 1 then max 1 (min w.param 10000)
          else if w.code = 2 ∨ w.code = 3 then min w.param 60000 else w.param }
    let last := start + ws.length - 1
    let locked := ∃ e tag d, (s.entryAt e).body = .resident tag d ∧ 0 < (s.entryAt e).users ∧
      ∃ page, start / 16 ≤ page ∧ page ≤ last / 16 ∧ d.firstPage ≤ page ∧ page < d.firstPage + d.pageCount
    (∀ body : List Byte, body.length ≠ 3 + 14 * u8At body 2 ∨ u8At body 2 = 0 ∨ 16 < u8At body 2 →
      exec (.writeSteps src tag body) s = .next (s.replied src tag [0x01, 0x06, 0x04])) ∧
    (1023 < last → exec c s = .next (s.replied src tag [0x01, 0x06, 0x03])) ∧
    (last ≤ 1023 → locked → exec c s = .next (s.replied src tag [0x01, 0x06, 0x02])) ∧
    (last ≤ 1023 → ¬ locked → s.store.wf = true → ∃ store : StepStore,
      exec c s = .next ({ s with store }.replied src tag
        ([0x01, 0x06, 0x00] ++ be8 (ws.filter fun w => clamped w ≠ w).length)) ∧
      ∀ a, StepStore.read store a = ((if start ≤ a then ws[a - start]? else none).map clamped).getD (s.store.read a))

/-- No command but DEVICE_RESET changes a step word inside the page range of a class some head is bound to (R20). -/
def Obligations.LockedPagesKept : Prop :=
  ∀ (c : Instr) (s t : State) (e : EntryIx) (tag : ClassId) (d : ClassDesc) (a : Nat), exec c s = .next t →
    c ≠ .deviceReset → (s.entryAt e).body = .resident tag d → 0 < (s.entryAt e).users → d.inRange a = true →
    t.store.read a = s.store.read a

/-- READ_STEPS answers the words as stored; a count or length that is wrong is refused LENGTH and a run past address 1023
RANGE (R22). -/
def Obligations.ReadStepsReturns : Prop :=
  ∀ (s : State) (src tag a1 a0 n : Byte), s.Takes src → 1 ≤ n.toNat → n.toNat ≤ 16 →
    (∀ body : List Byte, body.length ≠ 3 ∨ u8At body 2 = 0 ∨ 16 < u8At body 2 →
      exec (.readSteps src tag body) s = .next (s.replied src tag [0x01, 0x07, 0x04])) ∧
    let start := 256 * a1.toNat + a0.toNat
    exec (.readSteps src tag [a1, a0, n]) s = .next (s.replied src tag
      (if 1023 < start + n.toNat - 1 then [0x01, 0x07, 0x03]
       else [0x01, 0x07, 0x00, a1, a0, n] ++
         (List.range n.toNat).flatMap fun i => stepWordBytes (s.store.read (start + i))))

/-! ### The Class Cache -/

/-- READ_CLASS answers the entry selected by index, or the one entry a class id matches, in 71 bytes and 3 for each head
that waits, laid out as R167 has them; an unassigned selector or an index above 7 is refused RANGE and a wrong length
LENGTH (R43). It changes nothing but the reply. -/
def Obligations.ReadClassReports : Prop :=
  ∀ (s : State) (src tag sel b1 b0 : Byte), s.Takes src →
    let id := 256 * b1.toNat + b0.toNat
    let answers := fun e : Option EntryIx => exec (.readClass src tag [sel, b1, b0]) s = .next
      (s.replied src tag ([0x01, 0x08, 0x00] ++ s.classLayout e))
    (sel = 0 → s.DescriptorsClamped → ∀ e : EntryIx, id = e.val → answers (some e)) ∧
    (sel = 1 → (∀ e, (s.entryAt e).body.matchesId (BitVec.ofNat 16 id) = false) → answers none) ∧
    (sel = 1 → s.DescriptorsClamped → s.OneMatch → ∀ e, (s.entryAt e).body.matchesId (BitVec.ofNat 16 id) = true →
      answers (some e)) ∧
    (sel = 0 ∧ 8 ≤ id ∨ 2 ≤ sel.toNat →
      exec (.readClass src tag [sel, b1, b0]) s = .next (s.replied src tag [0x01, 0x08, 0x03])) ∧
    (∀ e, (s.classLayout e).length + 3 = 71 + 3 * s.cache.wait.length)

/-- FLUSH_CLASS makes INVALID every entry it names that is RESIDENT with no users, answers how many, and IN_USE where an
entry it names stays (R42). Stated where nothing is due, and where no head waits for a class or no entry is dropped; while
heads wait no entry can be dropped (R33). -/
def Obligations.FlushClassDrops : Prop :=
  ∀ (s : State) (src tag sel b1 b0 : Byte), s.Takes src → s.OneMatch → s.Settled →
    let id : ClassId := BitVec.ofNat 16 (256 * b1.toNat + b0.toNat)
    let named := fun e : EntryIx => sel = 1 ∨ (s.entryAt e).body.matchesId id = true
    let flushed := fun e : EntryIx => decide (named e ∧ (s.entryAt e).body.isResident = true ∧ (s.entryAt e).users = 0)
    let left := allEntries.filter fun e => decide (named e ∧ (s.entryAt e).body.isInvalid = false) && !flushed e
    let entries : PerEntry Entry := Vector.ofFn fun e : EntryIx =>
      if flushed e then { s.entryAt e with body := .invalid, users := 0 } else s.entryAt e
    (2 ≤ sel.toNat → exec (.flushClass src tag [sel, b1, b0]) s = .next (s.replied src tag [0x01, 0x09, 0x03])) ∧
    let s1 := { s with cache := { s.cache with entries } }
    let reply := [0x01, 0x09, if left = [] then 0x00 else 0x0A] ++ be8 (allEntries.filter flushed).length
    (sel.toNat < 2 → s.cache.wait = [] ∨ allEntries.filter flushed = [] →
      exec (.flushClass src tag [sel, b1, b0]) s = .next (s1.replied src tag reply))

/-- The victim of a miss (R30): the INVALID entry with the lowest index; where none is INVALID, the RESIDENT entry with no
users of the lowest retention and, among equals, of the highest recency position; none where no entry is either. -/
def Obligations.VictimChosen : Prop :=
  ∀ s : State, s.RecencyPermutation →
    let idle := fun (e : EntryIx) (tag : ClassId) (d : ClassDesc) =>
      (s.entryAt e).body = .resident tag d ∧ (s.entryAt e).users = 0
    (∀ e, (s.entryAt e).body = .invalid → (∀ f, f < e → (s.entryAt f).body ≠ .invalid) → s.victim = some e) ∧
    ((∀ e, (s.entryAt e).body ≠ .invalid) →
      (∀ e tag d, idle e tag d →
        (∀ f tag' d', f ≠ e → idle f tag' d' → retentionCode d.retention < retentionCode d'.retention ∨
          (d.retention = d'.retention ∧ (s.entryAt f).recency < (s.entryAt e).recency)) → s.victim = some e) ∧
      ((∀ e tag d, ¬ idle e tag d) → s.victim = none))

/-- CLASSLOAD's checks (R24, R36, R37): the field ranges are refused RANGE, an entry in use IN_USE, an overlapped entry in
use OVERLAP_IN_USE, a full cache TABLE_FULL, and none changes anything but the reply; other fields are clamped (R24). -/
def Obligations.ClassloadChecks : Prop :=
  (∀ (s : State) (src tag : Byte) (p : List Byte), s.Takes src → p.length = 21 + 2 * u8At p 20 →
    u8At p 20 = 2 ^ u8At p 2 →
    3 < u8At p 2 ∨ 2 < u8At p 3 ∨ u8At p 7 = 0 ∨ 64 < u8At p 7 ∨ 64 < u8At p 6 + u8At p 7 →
    exec (.classload src tag p) s = .next (s.replied src tag [0x05, 0x00, 0x03])) ∧
  (∀ (s : State) (src tag : Byte) (d : ClassDesc), s.Takes src → s.OneMatch →
    d.Clamped (clearLow d.classId d.span) → d.start < 65536 → d.minWet < 65536 →
    let c := Instr.classload src tag (descBytes d)
    (∀ e tag' d', (s.entryAt e).body = .resident tag' d' → (s.entryAt e).body.matchesId d.classId = true →
      0 < (s.entryAt e).users → exec c s = .next (s.replied src tag [0x05, 0x00, 0x0A, BitVec.ofNat 8 e.val])) ∧
    (∀ e f, s.LoadGoesTo d.classId e →
      (∀ g, s.covered d e g = true ∧ (s.entryAt g).body.isResident = true ∧ 0 < (s.entryAt g).users → f ≤ g) →
      s.covered d e f = true → (s.entryAt f).body.isResident = true → 0 < (s.entryAt f).users →
      exec c s = .next (s.replied src tag [0x05, 0x00, 0x0B, BitVec.ofNat 8 f.val])) ∧
    ((∀ e, (s.entryAt e).body.matchesId d.classId = false) → s.victim = none →
      exec c s = .next (s.replied src tag [0x05, 0x00, 0x08]))) ∧
  ∀ d : ClassDesc, d.start < 65536 → d.firstPage < 256 → d.liquidus < 65536 → d.maxTemp < 65536 → d.minWet < 65536 →
    d.kp < 65536 → d.ki < 65536 → d.settle < 65536 → (∀ t ∈ d.trims, -32768 ≤ t ∧ t ≤ 32767) →
    d.trims.length = 2 ^ d.span.val → 1 ≤ d.pageCount → d.pageCount ≤ 64 → d.firstPage + d.pageCount ≤ 64 →
    checkLoad (descBytes d) = .ok
      { d with liquidus := min d.liquidus 16000, maxTemp := min d.maxTemp 16000, kp := min d.kp 4095,
               ki := min d.ki 1023, settle := min d.settle 5000,
               trims := d.trims.map fun t => max (-250) (min t 250) }

/-- A CLASSLOAD fills its target (R36 to R39): RESIDENT at recency position 0, the heads bound to it and to the
fetches it covers bound to it with their variants, idle entries it covers INVALID; then satisfied heads start (R52).
Stated where no head waits for a class and nothing is due. (What an end of a cycle, or of a start that fails, leaves
of the feed baseline, the step fields, the step clock and a STOP that waits is the model's reading, log entries 14, 15
and 31.) -/
def Obligations.ClassloadFills : Prop :=
  ∀ (s : State) (src tag : Byte) (d : ClassDesc) (e : EntryIx), s.Takes src → s.Lawful → s.Settled →
    s.cache.wait = [] → d.Clamped (clearLow d.classId d.span) → d.start < 65536 → d.minWet < 65536 →
    s.LoadGoesTo d.classId e →
    (∀ f, s.covered d e f = true → (s.entryAt f).body.isResident = true → (s.entryAt f).users = 0) →
    ∃ t, exec (.classload src tag (descBytes d)) s = .next t ∧
      (s.loaded d e).StartsFrom ((s.loaded d e).replied src tag [0x05, 0x00, 0x00, BitVec.ofNat 8 e.val]) t

/-- FETCH_TIMER_EXPIRY (R35, R77, R81): the entry becomes INVALID, each head bound to it loses its promoted assignment and
is FAULTED with CLASS_UNAVAILABLE, its next assignment waiting. Where heads wait for a class, the wait-list retry then binds
them in turn (R33), and a head whose last requirement it meets starts (R52). An expiry that is not due has no effect (log
entry 5). (That a waiting head whose rerun lookup finds no entry stays at the head of the list is the model's choice, log
entry 28.) -/
def Obligations.FetchExpiryActs : Prop :=
  ∀ (s : State) (e : EntryIx), s.Taking →
    ((∀ tag, (s.entryAt e).body ≠ .fetching tag 0) → exec (.fetchTimerExpiry e) s = .next s) ∧
    ∀ tag, (s.entryAt e).body = .fetching tag 0 → s.Lawful → s.Settled →
      let bound := fun h : Head => (s.ctxAt h).binding.any fun b => b.entry = e
      let lost := fun id : CarrierId =>
        (allHeads.filter fun h => bound h && (s.ctxAt h).current.any fun c => c.asg.carrier = id).length
      let entry := fun f : EntryIx =>
        if f = e then { s.entryAt e with body := .invalid, users := 0 } else s.entryAt f
      let context := fun h : Head => if bound h then
          { s.ctxAt h with
            state := .faulted, cause := some .classUnavailable, binding := none, reqs := none,
            current := (s.ctxAt h).next.map fun a => { asg := a, promoted := false }, next := none }
        else s.ctxAt h
      let counted := s.carriers.map fun c =>
        { c with live := c.live - lost c.id, notStarted := c.notStarted + lost c.id }
      (s.cache.wait = [] → ∃ t, exec (.fetchTimerExpiry e) s = .next t ∧ (∀ f, t.entryAt f = entry f) ∧
        (∀ h, t.ctxAt h = context h) ∧
        ((∀ c ∈ s.carriers, lost c.id < c.live ∨ lost c.id = 0) → t.carriers = counted ∧ t.queue = s.queue) ∧
        t.cache.wait = [] ∧ t.share = s.share ∧ t.intake = s.intake ∧ t.store = s.store ∧
        t.config = s.config ∧ t.ring.drive = s.ring.drive) ∧
      ((∀ c ∈ s.carriers, lost c.id < c.live ∨ lost c.id = 0) →
        ∃ t m, exec (.fetchTimerExpiry e) s = .next t ∧
          State.Retried s.cache.wait
            { s with ctx := Vector.ofFn context, cache := { s.cache with entries := Vector.ofFn entry }, carriers := counted } m ∧
          (m.firstReady = none → m.AlikeButNotices t) ∧ ∀ h d, m.ReadyOn h d → m.CycleStarted t h d)

/-! ### Budget and configurations -/

/-- SET_BUDGET stores the budget held to 16000, and a wrong length is refused LENGTH (R121); a budget below the sum of the
grants scales every grant from its standing value and queues a BUDGET_CUT frame, which carries on a waiting feed request,
for each head it changes (R130, R135). -/
def Obligations.SetBudgetStores : Prop :=
  ∀ (s : State) (src tag hi lo : Byte), s.Takes src →
    let b := min (256 * hi.toNat + lo.toNat) 16000
    (∀ body, body.length ≠ 2 → exec (.setBudget src tag body) s = .next (s.replied src tag [0x01, 0x03, 0x04])) ∧
    (s.grantSum ≤ b → exec (.setBudget src tag [hi, lo]) s = .next
      ({ s with budget := b }.replied src tag ([0x01, 0x03, 0x00] ++ be16 b ++ [0]))) ∧
    (b < s.grantSum → ∃ t, exec (.setBudget src tag [hi, lo]) s = .next t ∧
      let cut := fun h : Head => decide ((t.rowAt h).grant ≠ (s.rowAt h).grant)
      (∀ h, t.rowAt h = { s.rowAt h with grant := (s.rowAt h).grant * b / s.grantSum }) ∧
      (∀ h, cut h = true → ∃ f ∈ t.ring.drive, f.head = h ∧ f.grant = (t.rowAt h).grant ∧ f.source = .budgetCut ∧
        f.activity = s.runningKind h ∧ f.dest = (s.configAt h).drive ∧ f.cancel = false ∧
        f.feedLen = (s.ring.drive.find? fun g => g.head = h).bind DriveFrame.feedLen) ∧
      (t.ring.drive.filter fun f => !cut f.head) = (s.ring.drive.filter fun f => !cut f.head) ∧
      t = { s with budget := b, share := t.share, ring := { s.ring with drive := t.ring.drive } }.replied src tag
        ([0x01, 0x03, 0x00] ++ be16 b ++ be8 (allHeads.filter cut).length))

/-- SET_HEAD stores the clamped configuration of an IDLE or DISABLED head, enables or disables it, forgets its intake, and
echoes what it stored; a wrong count or length is refused LENGTH, a wrong head, node or neighbour RANGE, and any other head
state BUSY (R64, R65, R99). -/
def Obligations.SetHeadStores : Prop :=
  ∀ (s : State) (src tag hd flags sensor drive r1 r0 t1 t0 : Byte) (ns : List (Byte × Byte × Byte)), s.Takes src →
    ns.length ≤ 2 →
    let c := Instr.setHead src tag ([hd, flags, sensor, drive, r1, r0, t1, t0] ++ be8 ns.length ++
      ns.flatMap fun n => [n.1, n.2.1, n.2.2])
    let bad := sensor = 255 ∨ drive = 255 ∨ (∃ n ∈ ns, 16 ≤ n.1.toNat ∨ n.1 = hd) ∨ ¬ (ns.map Prod.fst).Nodup
    (∀ body : List Byte, body.length ≠ 9 + 3 * u8At body 8 ∨ 2 < u8At body 8 →
      exec (.setHead src tag body) s = .next (s.replied src tag [0x01, 0x04, 0x04])) ∧
    (16 ≤ hd.toNat ∨ bad → exec c s = .next (s.replied src tag [0x01, 0x04, 0x03])) ∧
    ∀ h : Head, h.val = hd.toNat → ¬ bad →
      ((s.ctxAt h).state ≠ .idle → (s.ctxAt h).state ≠ .disabled →
        exec c s = .next (s.replied src tag [0x01, 0x04, 0x01])) ∧
      ((s.ctxAt h).state = .idle ∨ (s.ctxAt h).state = .disabled →
        let on := flags.getLsbD 0
        let rating := min (256 * r1.toNat + r0.toNat) 2500
        let staleness := max 5 (min (256 * t1.toNat + t0.toNat) 200)
        let coeff := fun n : Byte × Byte × Byte => min (256 * n.2.1.toNat + n.2.2.toNat) 1023
        let config : HeadConfig :=
          { enable := on, sensor, drive, rating, staleness,
            neighbours := ns.map fun n => { head := Fin.ofNat 16 n.1.toNat, coeff := coeff n } }
        exec c s = .next ((({ s with config := s.config.set h.val config }.modCtx h
            fun x => { x with state := if on then .idle else .disabled }).modIntake h
            fun i => { i with slot := none, lastSeq := none, lastFeed := none }).replied src tag
          ([0x01, 0x04, 0x00, hd, if on then 1 else 0, sensor, drive] ++ be16 rating ++ be16 staleness ++
            be8 ns.length ++ ns.flatMap fun n : Byte × Byte × Byte => n.1 :: be16 (coeff n))))

/-- READ_HEAD answers the configuration, the context and the share row of the head named, in the 141 bytes of R167, and
changes nothing but the reply; a head number above 15 is refused RANGE and a wrong length LENGTH (R86). -/
def Obligations.ReadHeadReports : Prop :=
  ∀ (s : State) (src tag hd : Byte), s.Takes src →
    (16 ≤ hd.toNat → exec (.readHead src tag [hd]) s = .next (s.replied src tag [0x01, 0x05, 0x03])) ∧
    ∀ h : Head, h.val = hd.toNat → (s.configAt h).neighbours.length ≤ 2 →
      exec (.readHead src tag [hd]) s = .next (s.replied src tag ([0x01, 0x05, 0x00] ++ s.headLayout h)) ∧
      (s.headLayout h).length + 3 = 141

/-! ### HALT and CLEAR_FAULT -/

/-- HALT of one head by its condition (R82, R83): a held record and a head with nothing to halt stay as they are; a
HEATING head's cycle ends HALTED; an ARMING head's assignment is discarded, with DROP_NEXT the next one too, and a
next assignment that stays is promoted. Where it acts, stated for a state that holds the laws, with nothing due and no
head waiting. (What an end of a cycle, or of a start that fails, leaves of the feed baseline, the step fields, the
step clock and a STOP that waits is the model's reading, log entries 14, 15 and 31.) -/
def Obligations.HaltOfOneHead : Prop :=
  ∀ (s : State) (src tag hd opt : Byte), s.Takes src →
    (16 ≤ hd.toNat → hd ≠ 255 → exec (.halt src tag [hd, opt]) s = .next (s.replied src tag [0x01, 0x0A, 0x03])) ∧
    ∀ h : Head, h.val = hd.toNat →
      ((s.ctxAt h).heldRecord.isSome = true →
        exec (.halt src tag [hd, opt]) s = .next (s.replied src tag [0x01, 0x0A, 0x00, 0x01, 0x00])) ∧
      ((s.ctxAt h).heldRecord = none → (s.ctxAt h).state ≠ .heating → (s.ctxAt h).state ≠ .arming →
        exec (.halt src tag [hd, opt]) s = .next (s.replied src tag [0x01, 0x0A, 0x00, 0x01, 0x03])) ∧
      (s.Lawful → s.Settled → s.cache.wait = [] →
        (∀ a w k d, s.Runs h a w k d → ∃ t earlier, exec (.halt src tag [hd, opt]) s = .next t ∧
          s.CycleEnded t h .halted a d (k = .feed) ∧
          t.ring.general = earlier ++ [s.replyTo src tag [0x01, 0x0A, 0x00, 0x01, 0x01]]) ∧
        (∀ a, (s.ctxAt h).state = .arming → (s.ctxAt h).current = some { asg := a, promoted := true } →
          ((s.ctxAt h).next = none ∨ opt.getLsbD 0 = true → ∃ t earlier, exec (.halt src tag [hd, opt]) s = .next t ∧
            s.Discarded t h (a :: (s.ctxAt h).next.toList) none .idle none ∧
            t.ring.general = earlier ++ [s.replyTo src tag [0x01, 0x0A, 0x00, 0x01, 0x02]]) ∧
          (∀ b, (s.ctxAt h).next = some b → opt.getLsbD 0 = false →
            (∀ c ∈ s.carriers, c.id = b.carrier → c.released = false) →
            ∃ t earlier, exec (.halt src tag [hd, opt]) s = .next t ∧ (t.ctxAt h).state = .arming ∧
              (t.ctxAt h).current = some { asg := b, promoted := true } ∧ (t.ctxAt h).next = none ∧
              (t.ctxAt h).settle = (s.ctxAt h).settle ∧ (∀ j, j ≠ h → t.ctxAt j = s.ctxAt j) ∧
              t.ring.general = earlier ++ [s.replyTo src tag [0x01, 0x0A, 0x00, 0x01, 0x02]])))

/-- HALT of ALL answers sixteen codes in head order and leaves no head HEATING or in ARMING (R82, R83, R84), where no head
holds a next assignment or waits for a class, and nothing is due. -/
def Obligations.HaltOfAllHeads : Prop :=
  ∀ (s : State) (src tag opt : Byte), s.Takes src → s.Lawful → s.Settled → s.cache.wait = [] →
    (∀ h, (s.ctxAt h).next = none) →
    let code := fun h : Head => if (s.ctxAt h).heldRecord.isSome then (0x00 : Byte) else match (s.ctxAt h).state with
      | .heating => 0x01
      | .arming => 0x02
      | _ => 0x03
    ∃ t earlier, exec (.halt src tag [255, opt]) s = .next t ∧
      (∀ h, (t.ctxAt h).state ≠ .heating ∧ (t.ctxAt h).state ≠ .arming) ∧ (∀ h, t.rowAt h = {}) ∧
      (∀ h, (s.ctxAt h).state ≠ .heating → (s.ctxAt h).state ≠ .arming → t.ctxAt h = s.ctxAt h) ∧
      t.ring.general = earlier ++ [s.replyTo src tag ([0x01, 0x0A, 0x00, 0x10] ++ allHeads.map code)]

/-- CLEAR_FAULT clears the cause of a FAULTED head and answers the state it leaves to: HELD with a record held, ARMING on a
waiting assignment, IDLE otherwise; any other head is refused NOT_FAULTED (R85). The FAULT cause is absent once no head is
FAULTED (R169). -/
def Obligations.ClearFaultReleases : Prop :=
  ∀ (s : State) (src tag hd : Byte), s.Takes src →
    (16 ≤ hd.toNat → exec (.clearFault src tag [hd]) s = .next (s.replied src tag [0x01, 0x0B, 0x03])) ∧
    ∀ h : Head, h.val = hd.toNat →
      ((s.ctxAt h).state ≠ .faulted →
        exec (.clearFault src tag [hd]) s = .next (s.replied src tag [0x01, 0x0B, 0x0D])) ∧
      ((s.ctxAt h).state = .faulted → s.Settled →
        let clears := fun (st : HeadState) (code : Byte) => ∃ t earlier,
          exec (.clearFault src tag [hd]) s = .next t ∧
          t.ring.general = earlier ++ [s.replyTo src tag [0x01, 0x0B, 0x00, code]] ∧
          (t.ctxAt h).state = st ∧ (t.ctxAt h).cause = none ∧ (∀ j, j ≠ h → t.ctxAt j = s.ctxAt j) ∧
          t.notices.detected.fault = decide (∃ j, (t.ctxAt j).state = .faulted) ∧
          (st ≠ .arming → t = { s with
            ctx := s.ctx.set h.val { s.ctxAt h with state := st, cause := none },
            notices := t.notices, ring := { s.ring with general := t.ring.general } })
        ((s.ctxAt h).heldRecord.isSome = true → clears .held 0x04) ∧
        ((s.ctxAt h).heldRecord = none → (s.ctxAt h).current = none → clears .idle 0x01) ∧
        (∀ a, (s.ctxAt h).heldRecord = none → (s.ctxAt h).current = some { asg := a, promoted := false } →
          s.Lawful → s.cache.wait = [] → (∀ c ∈ s.carriers, c.id = a.carrier → c.released = false) →
          clears .arming 0x02))

/-! ### The Record Queue -/

/-- READ_RECORDS removes and answers the oldest records, and the freed slots take held joint records in head order, then
carrier records of CLOSING entries in age order, those that close on the way among them (R137, R138, R142, R143, R145,
R146). The head of each record that enters has its held slot emptied; a HELD head goes to ARMING on a waiting assignment,
which is promoted, or to IDLE, and a FAULTED head stays (R76). Where nothing waits outside the queue nothing else changes
but the RECORDS cause. Stated, beyond that, where no head waits for a class, nothing is due and no head starts. (What the
reply describes where terminations are put off is the model's reading, log entry 19.) -/
def Obligations.ReadRecordsReturns : Prop :=
  ∀ (s : State) (src tag count : Byte), s.Takes src → s.QueueBounded →
    (count = 0 ∨ 4 < count.toNat →
      exec (.readRecords src tag [count]) s = .next (s.replied src tag [0x01, 0x0C, 0x03])) ∧
    (1 ≤ count.toNat → count.toNat ≤ 4 →
      let n := min count.toNat s.queue.length
      let items := fun (depth waiting : Nat) =>
        [0x01, 0x0C, 0x00] ++ be8 n ++ be8 depth ++ be8 waiting ++ (s.queue.take n).flatMap recordLayout
      (s.recordsWaiting = 0 → ∃ t earlier, exec (.readRecords src tag [count]) s = .next t ∧
        t.ring.general = earlier ++ [s.replyTo src tag (items (s.queue.length - n) 0)] ∧
        t.notices.detected.records = !(s.queue.drop n).isEmpty ∧
        t = { s with queue := s.queue.drop n, notices := t.notices,
                     ring := { s.ring with general := t.ring.general } }) ∧
      (s.Lawful → s.Settled → s.cache.wait = [] →
        (∀ h, (s.ctxAt h).state = .held → ∀ k, (s.ctxAt h).current = some k →
          ∀ c ∈ s.carriers, c.id = k.asg.carrier → c.released = false) →
        let holds := allHeads.filter fun h => (s.ctxAt h).heldRecord.isSome
        let gone := holds.take n
        let closed := s.carriers.filter fun c => c.closing || (decide (c.live = 0) &&
          !((holds.drop n).any fun h => (s.ctxAt h).heldRecord.any fun r => r.carrier = c.id))
        let entering := closed.take (n - gone.length)
        let freed := fun h : Head => { s.ctxAt h with heldRecord := none }
        ∃ t earlier, exec (.readRecords src tag [count]) s = .next t ∧
          t.queue = s.queue.drop n ++ (gone.filterMap fun h => (s.ctxAt h).heldRecord.map Record.joint) ++
            entering.map (fun c => Record.carrier c.record) ∧
          t.carriers = (s.carriers.map fun c => if c ∈ closed then { c with closing := true } else c).filter
            (fun c => !entering.any fun k => k.id = c.id) ∧
          t.ring.general = earlier ++ [s.replyTo src tag
            (items t.queue.length (holds.length - gone.length + (closed.length - entering.length)))] ∧
          (∀ h, h ∉ gone → t.ctxAt h = s.ctxAt h) ∧
          (∀ h ∈ gone, ((s.ctxAt h).state ≠ .held → t.ctxAt h = freed h) ∧
            ((s.ctxAt h).state = .held → (s.ctxAt h).current = none → t.ctxAt h = { freed h with state := .idle }) ∧
            ∀ k, (s.ctxAt h).state = .held → (s.ctxAt h).current = some k →
              (t.ctxAt h).state = .arming ∧ (t.ctxAt h).current = some { asg := k.asg, promoted := true } ∧
              (t.ctxAt h).next = (s.ctxAt h).next ∧ (t.ctxAt h).heldRecord = none ∧
              ((t.ctxAt h).binding.isSome = true ∨ ∃ w ∈ t.cache.wait, w.head = h) ∧
              (gone = [h] → s.Promoted t h k.asg (freed h))) ∧
          t.notices.detected.records = !t.queue.isEmpty ∧
          t = { s with ctx := t.ctx, carriers := t.carriers, queue := t.queue, notices := t.notices,
                       cache := { s.cache with entries := t.cache.entries, wait := t.cache.wait },
                       ring := { s.ring with general := t.ring.general } }))

/-! ### Carriers, requirements and starts -/

/-- The reply of a CARRIER frame (R46, R47): DUPLICATE and TABLE_FULL refuse it whole; otherwise each assignment is examined
in frame order and either taken or refused by the first check it fails; the carrier is entered with the number taken. -/
def Obligations.CarrierExamined : Prop :=
  ∀ (s : State) (src tag : Byte) (id : CarrierId) (asgs : List (Byte × Byte × ClassId × Byte)), s.Takes src →
    1 ≤ asgs.length → asgs.length ≤ 16 →
    let c := Instr.carrier src tag (be32 id.toNat ++ be8 asgs.length ++
      asgs.flatMap fun a => [a.1, a.2.1] ++ be16 a.2.2.1.toNat ++ [a.2.2.2])
    let status := fun i : Nat =>
      let hd := (asgs.map fun a => a.1.toNat).getD i 0
      let x := s.ctxAt (Fin.ofNat 16 hd)
      if 16 ≤ hd then some (0x03 : Byte) else if x.state = .disabled then some 0x0C
      else if hd ∈ (asgs.take i).map (fun a => a.1.toNat) then some 0x07
      else if x.current.isSome && x.next.isSome then some 0x09 else none
    let taken := (List.range asgs.length).filter fun i => (status i).isNone
    let refused := (List.range asgs.length).filter fun i => (status i).isSome
    ((s.carrierAt id).isSome = true → exec c s = .next (s.replied src tag [0x03, 0x00, 0x07])) ∧
    (s.carrierAt id = none → 2 ≤ s.carriers.length → exec c s = .next (s.replied src tag [0x03, 0x00, 0x08])) ∧
    (s.carrierAt id = none → s.carriers.length < 2 → ∃ t earlier, exec c s = .next t ∧
      t.ring.general = earlier ++ [s.replyTo src tag ([0x03, 0x00, 0x00] ++ be8 taken.length ++ be8 refused.length ++
        refused.flatMap fun i => [BitVec.ofNat 8 i, (asgs.map Prod.fst).getD i 0, (status i).getD 0])] ∧
      (taken = [] → t = s.queued (s.replyTo src tag ([0x03, 0x00, 0x00, 0x00] ++ be8 refused.length ++
        refused.flatMap fun i => [BitVec.ofNat 8 i, (asgs.map Prod.fst).getD i 0, (status i).getD 0]))) ∧
      (taken ≠ [] → s.Lawful → s.Settled → s.cache.wait = [] →
        t.carriers = s.carriers ++ [newCarrier id taken.length]))

/-- An assignment taken by a head that is not IDLE waits: in the next slot behind a current assignment, otherwise in the
current slot (R48, R49). Nothing else changes but the carrier and the reply. -/
def Obligations.CarrierWaitsItsTurn : Prop :=
  ∀ (s : State) (src tag hd joint flags : Byte) (id : CarrierId) (cls : ClassId) (h : Head), s.Takes src → s.Settled →
    s.carrierAt id = none → s.carriers.length < 2 → h.val = hd.toNat → (s.ctxAt h).state ≠ .idle →
    (s.ctxAt h).state ≠ .disabled → (s.ctxAt h).next = none →
    let a : Assignment := { carrier := id, joint, classId := cls, refresh := flags.getLsbD 0 }
    exec (.carrier src tag (be32 id.toNat ++ [1, hd, joint] ++ be16 cls.toNat ++ [flags])) s = .next
      (({ s with carriers := s.carriers ++ [newCarrier id 1] }.modCtx h fun c =>
        if c.current = none then { c with current := some { asg := a, promoted := false } }
        else { c with next := some a }).replied src tag [0x03, 0x00, 0x00, 0x01, 0x00])

/-- An assignment taken by an IDLE head is promoted (R28 to R32, R49, R50): the head enters ARMING, its class is looked up,
and it is bound to a matching entry, to a victim that is fetched, or waits where there is none. Stated where no head waits
for a class and nothing is due. -/
def Obligations.PromotionBinds : Prop :=
  ∀ (s : State) (src tag hd joint flags : Byte) (id : CarrierId) (cls : ClassId) (h : Head), s.Takes src → s.Lawful →
    s.Settled → s.cache.wait = [] → s.carrierAt id = none → s.carriers.length < 2 → h.val = hd.toNat →
    (s.ctxAt h).state = .idle →
    let a : Assignment := { carrier := id, joint, classId := cls, refresh := flags.getLsbD 0 }
    let reqs : Bool → Requirements := fun bound =>
      { bound, purge := false, released := false, interlock := s.interlock, settle := (s.ctxAt h).settle.isNone }
    let armed := fun (b : Option Binding) (bound : Bool) =>
      { s.ctxAt h with
        state := .arming, current := some { asg := a, promoted := true }, binding := b, reqs := some (reqs bound) }
    let back := fun (e f : EntryIx) =>
      if f = e then 0 else
        if (s.entryAt f).recency < (s.entryAt e).recency then (s.entryAt f).recency + 1 else (s.entryAt f).recency
    let users1 := fun (e f : EntryIx) =>
      { s.entryAt f with recency := back e f, users := (s.entryAt f).users + if f = e then 1 else 0 }
    let fetches := if s.ring.cc ≠ 0 ∧ s.ring.general.length < 7 then
      [{ dest := s.ring.cc, src := s.ring.own, kind := 0x06, tag := 0, payload := be16 cls.toNat : Frame }] else []
    let reply := s.replyTo src tag [0x03, 0x00, 0x00, 0x01, 0x00]
    ∃ t, exec (.carrier src tag (be32 id.toNat ++ [1, hd, joint] ++ be16 cls.toNat ++ [flags])) s = .next t ∧
      t.carriers = s.carriers ++ [newCarrier id 1] ∧ (∀ j, j ≠ h → t.ctxAt j = s.ctxAt j) ∧
      (∀ e tg d, (s.entryAt e).body = .resident tg d → (s.entryAt e).body.matchesId cls = true →
        ¬ (a.refresh = true ∧ (s.entryAt e).users = 0) →
        t.ctxAt h = armed (some { entry := e, variant := (cls - tg).toNat }) true ∧
        (∀ f, t.entryAt f = users1 e f) ∧
        t.cache.wait = [] ∧ t.ring.general = s.ring.general ++ [reply]) ∧
      (∀ e n, (s.entryAt e).body = .fetching cls n →
        t.ctxAt h = armed (some { entry := e, variant := 0 }) false ∧
        (∀ f, t.entryAt f = users1 e f) ∧
        t.cache.wait = [] ∧ t.ring.general = s.ring.general ++ [reply]) ∧
      ((∀ e, (s.entryAt e).body.matchesId cls = false) →
        (∀ v, s.victim = some v →
          t.ctxAt h = armed (some { entry := v, variant := 0 }) false ∧
          (∀ f, t.entryAt f = if f = v then { body := .fetching cls s.cache.fetchLimit, users := 1, recency := 0 }
            else { s.entryAt f with recency := back v f }) ∧
          t.cache.wait = [] ∧ t.ring.general = s.ring.general ++ fetches ++ [reply]) ∧
        (s.victim = none →
          t.ctxAt h = armed none false ∧ (∀ f, t.entryAt f = s.entryAt f) ∧
          t.cache.wait = [{ head := h, classId := cls, refresh := a.refresh }] ∧
          t.ring.general = s.ring.general ++ [reply])) ∧
      (∀ e, a.refresh = true → (s.entryAt e).body.isResident = true → (s.entryAt e).body.matchesId cls = true →
        (s.entryAt e).users = 0 → ∃ v, v ≤ e ∧ (v = e ∨ (s.entryAt v).body = .invalid) ∧
          (∀ f, f < v → (s.entryAt f).body ≠ .invalid) ∧
          t.ctxAt h = armed (some { entry := v, variant := 0 }) false ∧
          (∀ f, t.entryAt f = if f = v then { body := .fetching cls s.cache.fetchLimit, users := 1, recency := 0 }
            else if f = e then { body := .invalid, users := 0, recency := back v f }
            else { s.entryAt f with recency := back v f }) ∧
          t.cache.wait = [] ∧ t.ring.general = s.ring.general ++ fetches ++ [reply])

/-- RELEASE marks the carrier and meets the released requirement of its heads in ARMING; heads whose last requirement
it is start (R52, R55). An unknown carrier is refused, and a second RELEASE, or one for a CLOSING entry, changes
nothing. (What an end of a cycle, or of a start that fails, leaves of the feed baseline, the step fields, the step
clock and a STOP that waits is the model's reading, log entries 14, 15 and 31.) -/
def Obligations.ReleaseMarks : Prop :=
  ∀ (s : State) (src tag : Byte) (id : CarrierId), s.Takes src →
    let c := Instr.release src tag (be32 id.toNat)
    (s.carrierAt id = none → exec c s = .next (s.replied src tag [0x04, 0x00, 0x06])) ∧
    ∀ k, s.carrierAt id = some k →
      (k.released = true ∨ k.closing = true → exec c s = .next (s.replied src tag [0x04, 0x00, 0x00])) ∧
      (k.released = false → k.closing = false → s.Lawful → s.Settled →
        let s1 := (s.withCarrier id fun x => { x with released := true }).withReqs (s.namesCarrier id)
          fun r => { r with released := true }
        ∃ t, exec c s = .next t ∧ s1.StartsFrom (s1.replied src tag [0x04, 0x00, 0x00]) t)

/-- A PURGE OK report marks the carrier and meets the purge requirement of its heads in ARMING; heads whose last
requirement it is start (R52, R53). A carrier no entry holds makes a foreign frame. (What an end of a cycle, or of a
start that fails, leaves of the feed baseline, the step fields, the step clock and a STOP that waits is the model's
reading, log entries 14, 15 and 31.) -/
def Obligations.PurgeOkMarks : Prop :=
  ∀ (s : State) (src : Byte) (id : CarrierId), s.Taking → sendingNode src = true →
    (s.carrierAt id = none → s.CountersBounded →
      ∃ t, exec (.purgeOk src id) s = .next t ∧ s.OnlyCounts t s.foreignCounted) ∧
    ((s.carrierAt id).isSome = true → s.Lawful → s.Settled →
      let s1 := (s.withCarrier id fun x => { x with purge := .ok }).withReqs (s.namesCarrier id)
        fun r => { r with purge := true }
      ∃ t, exec (.purgeOk src id) s = .next t ∧ s1.StartsFrom s1 t)

/-- A PURGE LOST report (R54): the carrier's heads in ARMING lose the purge requirement, and those that are HEATING
end PURGE_LOST in head order, their records entering as long as there is room, so that none is left HEATING on it. A
carrier no entry holds makes a foreign frame (R53). (What an end of a cycle, or of a start that fails, leaves of the
feed baseline, the step fields, the step clock and a STOP that waits is the model's reading, log entries 14, 15 and
31.) -/
def Obligations.PurgeLostEndsCycles : Prop :=
  ∀ (s : State) (src : Byte) (id : CarrierId), s.Taking → sendingNode src = true →
    let s1 := (s.withCarrier id fun x => { x with purge := .lost }).withReqs (s.namesCarrier id)
      fun r => { r with purge := false }
    (s.carrierAt id = none → s.CountersBounded →
      ∃ t, exec (.purgeLost src id) s = .next t ∧ s.OnlyCounts t s.foreignCounted) ∧
    ((s.carrierAt id).isSome = true → s.Lawful → s.Settled → ∃ t, exec (.purgeLost src id) s = .next t ∧
      (∀ h, (t.ctxAt h).state = .heating → t.namesCarrier id h = false) ∧
      (∀ h, (s.ctxAt h).state = .heating → s.namesCarrier id h = false → t.ctxAt h = s.ctxAt h) ∧
      ((∀ h, (s.ctxAt h).state = .heating → s.namesCarrier id h = false) → t = s1) ∧
      (s.cache.wait = [] →
        let ended := allHeads.filter fun h => decide ((s.ctxAt h).state = .heating) && s.namesCarrier id h
        (∀ h ∈ ended, (s.ctxAt h).next = none) → s1.AllEnded t ended .purgeLost) ∧
      ∀ h a w k d, s.cache.wait = [] → s.Runs h a w k d → a.carrier = id → (s.ctxAt h).next = none ∨ d.settle ≠ 0 →
        (∀ j, j ≠ h → (s.ctxAt j).state = .heating → s.namesCarrier id j = false) →
        s1.CycleEnded t h .purgeLost a d (k = .feed))

/-- The interlock follows the ILK pin (R51, R52, R56, R57): its opening ends every running cycle INTERLOCK, in head
order, and takes the interlock requirement from every head in ARMING; its closing meets that requirement, and heads
whose last one it is start. (What an end of a cycle, or of a start that fails, leaves of the feed baseline, the step
fields, the step clock and a STOP that waits is the model's reading, log entries 14, 15 and 31.) -/
def Obligations.InterlockFollowsPin : Prop :=
  ∀ s : State, s.resetHeld = false → s.Lawful → s.Settled →
    let follows := fun closed : Bool =>
      { s with pins := { s.pins with ilk := closed }, interlock := closed }.withReqs (fun _ => true)
        fun r => { r with interlock := closed }
    (∃ t, exec .interlockOpening s = .next t ∧ t.interlock = false ∧ t.pins.ilk = false ∧
      (∀ h, (t.ctxAt h).state ≠ .heating) ∧
      (∀ h, (t.ctxAt h).state = .arming → ∀ r ∈ (t.ctxAt h).reqs, r.interlock = false) ∧
      ((∀ h, (s.ctxAt h).state ≠ .heating) → t = follows false) ∧
      (s.cache.wait = [] →
        let ended := allHeads.filter fun h => decide ((s.ctxAt h).state = .heating)
        (∀ h ∈ ended, (s.ctxAt h).next = none) → (follows false).AllEnded t ended .interlock) ∧
      ∀ h a w k d, s.cache.wait = [] → s.Runs h a w k d → (∀ j, j ≠ h → (s.ctxAt j).state ≠ .heating) →
        (follows false).CycleEnded t h .interlock a d (k = .feed)) ∧
    ∃ t, exec .interlockClosing s = .next t ∧ (follows true).StartsFrom (follows true) t

/-- SETTLE_TIMER_EXPIRY makes the settle timer idle and meets the settle requirement of a head in ARMING, which starts
where it is the last one (R52, R58). An expiry that is not due has no effect (log entry 5). (What an end of a cycle,
or of a start that fails, leaves of the feed baseline, the step fields, the step clock and a STOP that waits is the
model's reading, log entries 14, 15 and 31.) -/
def Obligations.SettleExpiryMeets : Prop :=
  ∀ (s : State) (h : Head), s.Taking →
    ((s.ctxAt h).settle ≠ some 0 → exec (.settleTimerExpiry h) s = .next s) ∧
    ((s.ctxAt h).settle = some 0 → s.Lawful → s.Settled →
      let s1 := s.modCtx h fun c =>
        { c with settle := none,
                 reqs := if c.state = .arming then c.reqs.map fun r => { r with settle := true } else c.reqs }
      ∃ t, exec (.settleTimerExpiry h) s = .next t ∧ s1.StartsFrom s1 t)

/-! ### Samples and drive status -/

/-- A SAMPLE (R91 to R94): one that is not accepted is a foreign frame; a duplicate changes nothing; a new one counts its
gap while the head is HEATING; a strong one fills the pending slot, counts an overrun where it replaces a sample of a
HEATING head, and restarts its staleness timer. -/
def Obligations.SampleTaken : Prop :=
  ∀ (s : State) (src : Byte) (p : List Byte), s.Taking → sendingNode src = true → s.CountersBounded →
    (p.length ≠ 5 ∨ 16 ≤ u8At p 0 ∨
        (∀ h : Head, h.val = u8At p 0 → (s.ctxAt h).state = .disabled ∨ (s.configAt h).sensor ≠ src) →
      ∃ t, exec (.sample src p) s = .next t ∧ s.OnlyCounts t s.foreignCounted) ∧
    ∀ (h : Head) (hd seq t1 t0 strength : Byte), p = [hd, seq, t1, t0, strength] → h.val = hd.toNat →
      (s.ctxAt h).state ≠ .disabled → (s.configAt h).sensor = src →
      let i := s.intakeAt h
      let c := s.ctxAt h
      let hot : Bool := decide (c.state = .heating)
      let gap := if hot then (i.lastSeq.map fun last => (seq.toNat + 255 - last.toNat) % 256).getD 0 else 0
      let missed := min (c.missed + gap) 65535
      (i.lastSeq = some seq → exec (.sample src p) s = .next s) ∧
      (i.lastSeq ≠ some seq → strength.toNat < s.minStrength → c.missed ≤ 65535 → exec (.sample src p) s = .next
        { s with ctx := s.ctx.set h.val { c with missed },
                 intake := s.intake.set h.val { i with lastSeq := some seq } }) ∧
      (i.lastSeq ≠ some seq → s.minStrength ≤ strength.toNat → c.missed ≤ 65535 → c.overruns ≤ 65535 →
        exec (.sample src p) s = .next
        { s with
          ctx := s.ctx.set h.val
            { c with missed, overruns := if hot && i.slot.isSome then min (c.overruns + 1) 65535 else c.overruns },
          intake := s.intake.set h.val
            { i with lastSeq := some seq,
                     slot := some { seq, temp := min (256 * t1.toNat + t0.toNat) 16000 },
                     staleTimer := if hot then some (s.configAt h).staleness else i.staleTimer } })

/-- A DSTAT (R100 to R103, R10, R80): one that is not accepted is a foreign frame; energy is counted while the head is
HEATING; the fault flag faults the head by its state; the feed counter is recorded, becomes the baseline of a FEED
that has none, and ends a FEED whose baseline it differs from. (What an end of a cycle, or of a start that fails,
leaves of the feed baseline, the step fields, the step clock and a STOP that waits is the model's reading, log entries
14, 15 and 31.) -/
def Obligations.DstatTaken : Prop :=
  ∀ (s : State) (src : Byte) (p : List Byte), s.Taking → sendingNode src = true → s.CountersBounded →
    (p.length ≠ 5 ∨ 16 ≤ u8At p 0 ∨
        (∀ h : Head, h.val = u8At p 0 → (s.ctxAt h).state = .disabled ∨ (s.configAt h).drive ≠ src) →
      ∃ t, exec (.dstat src p) s = .next t ∧ s.OnlyCounts t s.foreignCounted) ∧
    ∀ (h : Head) (hd p1 p0 flags counter : Byte), p = [hd, p1, p0, flags, counter] → h.val = hd.toNat →
      (s.ctxAt h).state ≠ .disabled → (s.configAt h).drive = src →
      let c := s.ctxAt h
      let delivered := min (256 * p1.toNat + p0.toNat) 2500
      let spent := (c.dstatMark.map fun m => delivered * min (s.now - m) (s.configAt h).staleness).getD 0
      let s0 := s.modIntake h fun i => { i with lastFeed := some counter }
      let s1 := if c.state = .heating then s0.modCtx h fun c =>
          { c with energy := min (c.energy + spent) 4294967295, dstatMark := some s.now } else s0
      let feeds := c.state = .heating ∧ s.runningKind h = some .feed
      c.energy ≤ 4294967295 →
      (flags.getLsbD 0 = false →
        (¬ feeds → exec (.dstat src p) s = .next s1) ∧
        (feeds → c.feedBaseline = none → exec (.dstat src p) s = .next
          (s1.modCtx h fun c => { c with feedBaseline := some counter })) ∧
        (feeds → c.feedBaseline = some counter → exec (.dstat src p) s = .next s1) ∧
        (∀ a w d old, c.feedBaseline = some old → old ≠ counter → s.Lawful → s.Settled → s.cache.wait = [] →
          s.Runs h a w .feed d → w.cont = false →
          (w.next = false → ∃ t, exec (.dstat src p) s = .next t ∧ s1.CycleEnded t h .good a d false) ∧
          (w.next = true → ∀ v, c.prefetch = .word v → v.kind? ≠ none →
            ∃ t, exec (.dstat src p) s = .next t ∧ s1.ChainedNext t h v d))) ∧
      (flags.getLsbD 0 = true → s.Lawful → s.Settled → s.cache.wait = [] →
        (c.state = .faulted → exec (.dstat src p) s = .next s1) ∧
        (c.state = .idle ∨ c.state = .held → ∃ t, exec (.dstat src p) s = .next t ∧ t.notices.detected.fault = true ∧
          t = { s0 with ctx := s.ctx.set h.val { c with state := .faulted, cause := some .driveFault },
                        notices := t.notices, ring := { s.ring with general := t.ring.general } }) ∧
        (∀ a, c.state = .arming → c.current = some { asg := a, promoted := true } →
          ∃ t, exec (.dstat src p) s = .next t ∧ s0.Discarded t h [a] c.next .faulted (some .driveFault)) ∧
        (∀ a w k d, s.Runs h a w k d →
          ∃ t, exec (.dstat src p) s = .next t ∧ s1.CycleEnded t h .driveFault a d (k = .feed)))

/-! ### Expiries of running cycles -/

/-- STALENESS_EXPIRY ends the cycle SENSOR_LOST (R96) and STEP_TIMEOUT by the kind of the step RAMP_TIMEOUT,
FEED_TIMEOUT or COOL_TIMEOUT (R12, R68); one that is not due has no effect (log entry 5). The ends of cycles are
stated where nothing else is due and no head waits for a class. (What an end of a cycle, or of a start that fails,
leaves of the feed baseline, the step fields, the step clock and a STOP that waits is the model's reading, log entries
14, 15 and 31.) -/
def Obligations.ExpiriesEndCycles : Prop :=
  ∀ (s : State) (h : Head), s.Taking →
    ((s.ctxAt h).state ≠ .heating ∨ (s.intakeAt h).staleTimer ≠ some 0 → exec (.stalenessExpiry h) s = .next s) ∧
    ((s.ctxAt h).state ≠ .heating ∨ (s.ctxAt h).stepTimer ≠ some 0 ∨ s.runningKind h = some .soak ∨
        s.runningKind h = some .hold → exec (.stepTimeout h) s = .next s) ∧
    ∀ a w k d, s.Lawful → s.Settled → s.cache.wait = [] → s.Runs h a w k d →
      ((s.intakeAt h).staleTimer = some 0 →
        ∃ t, exec (.stalenessExpiry h) s = .next t ∧ s.CycleEnded t h .sensorLost a d (k = .feed)) ∧
      ((s.ctxAt h).stepTimer = some 0 →
        (k = .ramp → ∃ t, exec (.stepTimeout h) s = .next t ∧ s.CycleEnded t h .rampTimeout a d false) ∧
        (k = .feed → ∃ t, exec (.stepTimeout h) s = .next t ∧ s.CycleEnded t h .feedTimeout a d true) ∧
        (k = .cool → ∃ t, exec (.stepTimeout h) s = .next t ∧ s.CycleEnded t h .coolTimeout a d false))

/-- DWELL_EXPIRY takes the end event of a SOAK or HOLD (R8, R9, R15 to R18): CONTINUE goes on with a segment of the
same kind, a failed exit check ends the cycle, NEXT chains to a valid word, and the chain ends GOOD; a bad word or an
address outside the class's pages ends it BAD_STEP or PROFILE_RANGE. A word with a dwell of 0 takes its own end event
at once. An expiry that is not due has no effect (log entry 5). (What an end of a cycle, or of a start that fails,
leaves of the feed baseline, the step fields, the step clock and a STOP that waits is the model's reading, log entries
14, 15 and 31.) -/
def Obligations.DwellExpiryActs : Prop :=
  ∀ (s : State) (h : Head), s.Taking →
    ((s.ctxAt h).state ≠ .heating ∨ (s.ctxAt h).stepTimer ≠ some 0 ∨
        (s.runningKind h ≠ some .soak ∧ s.runningKind h ≠ some .hold) → exec (.dwellExpiry h) s = .next s) ∧
    ∀ a w k d, s.Lawful → s.Settled → s.cache.wait = [] → s.Runs h a w k d → (s.ctxAt h).stepTimer = some 0 →
      k = .soak ∨ k = .hold →
      let c := s.ctxAt h
      let ends := fun o : CycleOutcome => ∃ t, exec (.dwellExpiry h) s = .next t ∧ s.CycleEnded t h o a d false
      let exit : Option CycleOutcome := if k = .hold then none else match c.lastTemp with
        | none => some .exitLow
        | some tm => if tm + w.window < w.target then some .exitLow
          else if w.target + w.window < tm then some .exitHigh
          else if w.wet = true ∧ c.wet < d.minWet then some .shortWetting else none
      (w.next = true → w.cont = true → ends .badStep) ∧
      (w.next = false → w.cont = true →
        (c.prefetch = .rangeError → ends .profileRange) ∧
        (∀ v, c.prefetch = .word v → (v.code ≠ w.code → ends .badStep) ∧
          (v.code = w.code →
            (v.zeroDwell = false → exec (.dwellExpiry h) s = .next (s.chainedSegment h v d)) ∧
            (v.zeroDwell = true → exec (.dwellExpiry h) s = exec (.dwellExpiry h) ((s.chainedSegment h v d).runOut h))))) ∧
      (w.cont = false →
        (∀ o, exit = some o → ends o) ∧
        (exit = none → w.next = false → ends .good) ∧
        (exit = none → w.next = true →
          (c.prefetch = .rangeError → ends .profileRange) ∧
          (∀ v, c.prefetch = .word v → (v.kind? = none → ends .badStep) ∧
            (v.kind? ≠ none →
              ∃ t, exec (.dwellExpiry h) s = .next t ∧ s.ChainedNext t h v d))))

/-! ### Services -/

/-- SERVICE takes the sample of the next head in turn (R97) and, for a head that is IDLE, ARMING, HELD or FAULTED, sets its
last temperature and nothing else (R98); with no sample pending nothing happens. R98 has a DISABLED head never served: that
its sample would be taken without effect is the model's choice (log entry 29). -/
def Obligations.ServiceTakesTurns : Prop :=
  ∀ s : State, s.Taking →
    ((∀ h, (s.intakeAt h).slot = none) → exec .service s = .next s) ∧
    ∀ (h : Head) (p : PendingSample), s.NextToServe h p → (s.ctxAt h).state ≠ .heating →
      let measured : HeadCtx → HeadCtx := fun c => if c.state = .disabled then c else { c with lastTemp := some p.temp }
      exec .service s = .next
        (({ s with pointer := h }.modIntake h fun i => { i with slot := none }).modCtx h measured)

/-- A service of a HEATING head whose demand the headroom covers and which does not end the step (R105 to R117, R123,
R124): bookkeeping, loop, demand, grant, limited flag and DRIVE frame, and nothing else. (A frame that replaces a
waiting one carries the waiting feed length, its own request or not: the model's reading of R135, log entry 4.) -/
def Obligations.ServiceComputes : Prop :=
  ∀ (s : State) (h : Head) (p : PendingSample) (w : StepWord) (k : Kind) (d : ClassDesc), s.Taking → s.NextToServe h p →
    (s.ctxAt h).state = .heating → s.runningStep h = some (w, k, d) → p.temp ≤ d.maxTemp →
    let demand := s.demandAt h k w d p.temp
    ((s.rowAt h).cap.map fun c => min demand c.limit).getD demand ≤ s.budget - s.otherGrants h →
    (s.ctxAt h).stepDone k w p.temp = false →
    exec .service s = .next (s.served h p k w d)

/-- A service whose want exceeds the headroom is granted the headroom and claims the shortfall from the rows of lower
priority (R123 to R126): highest tier number first, then highest head number, each capped to what its grant keeps; no
grant but the head's own changes. (A frame that replaces a waiting one carries the waiting feed length, its own
request or not: the model's reading of R135, log entry 4.) (That a head in COOL which still holds the grant of its
step before is a donor is the model's choice, log entry 30.) -/
def Obligations.ServiceClaims : Prop :=
  ∀ (s : State) (h : Head) (p : PendingSample) (w : StepWord) (k : Kind) (d : ClassDesc) (tier : Tier), s.Taking →
    s.NextToServe h p → (s.ctxAt h).state = .heating → s.runningStep h = some (w, k, d) → p.temp ≤ d.maxTemp →
    (s.rowAt h).tier = some tier →
    let demand := s.demandAt h k w d p.temp
    let want := ((s.rowAt h).cap.map fun c => min demand c.limit).getD demand
    let room := s.budget - s.otherGrants h
    room < want → (s.ctxAt h).stepDone k w p.temp = false →
    ∃ t, exec .service s = .next t ∧ t.rowAt h = { s.rowAt h with demand, grant := room } ∧
      (∀ j, j ≠ h → t.rowAt j = s.rowClaimed h tier (want - room) j) ∧
      t.ctxAt h = s.servedCtx h k w d p.temp room ∧ (∀ j, j ≠ h → t.ctxAt j = s.ctxAt j) ∧
      t.ring.drive = placeIn s.ring.drive (s.serviceFrame h k w room .headroom) ∧
      t.notices.detected.claim = decide (∃ j, (t.rowAt j).cap.isSome = true) ∧
      t = { s with pointer := h, ctx := t.ctx, share := t.share, notices := t.notices,
                   intake := s.intake.set h.val { s.intakeAt h with slot := none },
                   ring := { s.ring with drive := t.ring.drive, general := t.ring.general } }

/-- A service that ends (R7, R11, R15, R106, R117): a sample above the class's maximum ends the cycle OVERHEAT before
any demand; a RAMP that has arrived and a COOL that has fallen take their end event after the service's DRIVE frame,
and end GOOD or chain with NEXT. Stated where the headroom covers the demand, nothing is due and no head waits for a
class. (What an end of a cycle, or of a start that fails, leaves of the feed baseline, the step fields, the step clock
and a STOP that waits is the model's reading, log entries 14, 15 and 31.) (A frame that replaces a waiting one carries
the waiting feed length, its own request or not: the model's reading of R135, log entry 4.) -/
def Obligations.ServiceEndsSteps : Prop :=
  ∀ (s : State) (h : Head) (p : PendingSample) (a : Assignment) (w : StepWord) (k : Kind) (d : ClassDesc), s.Taking →
    s.Lawful → s.Settled → s.cache.wait = [] → s.NextToServe h p → s.Runs h a w k d →
    let demand := s.demandAt h k w d p.temp
    let s1 := ({ s with pointer := h }.modIntake h fun i => { i with slot := none }).modCtx h
      fun c => { c with lastTemp := some p.temp, peak := some (max (c.peak.getD p.temp) p.temp) }
    (d.maxTemp < p.temp → ∃ t, exec .service s = .next t ∧ s1.CycleEnded t h .overheat a d (k = .feed)) ∧
    (p.temp ≤ d.maxTemp → ((s.rowAt h).cap.map fun c => min demand c.limit).getD demand ≤ s.budget - s.otherGrants h →
      (s.ctxAt h).stepDone k w p.temp = true → w.cont = false →
      (w.next = false → ∃ t, exec .service s = .next t ∧ (s.served h p k w d).CycleEnded t h .good a d false) ∧
      (w.next = true → ∀ v, (s.ctxAt h).prefetch = .word v → v.kind? ≠ none →
        ∃ t, exec .service s = .next t ∧ (s.served h p k w d).ChainedNext t h v d))
end

