-- ==== Sys2Proof/Laws/Cache.lean ====
section
/-! SUPPORT. Laws of the Class Cache: clearing low bits, matching and overlapping, and the law of one match from entries
that pairwise do not overlap. -/

namespace Sys2Proof.Machine

/-- Bit `i` of a class id with its low bits cleared. -/
theorem clearLow_getLsbD (c : ClassId) (n : Fin 4) (i : Nat) :
    (clearLow c n).getLsbD i = (decide (n.val ≤ i) && c.getLsbD i) := by
  unfold clearLow
  simp only [BitVec.getLsbD_shiftLeft, BitVec.getLsbD_ushiftRight]
  by_cases h : n.val ≤ i
  · by_cases hi : i < 16
    · simp [h, hi, Nat.not_lt.mpr h]
    · have : c.getLsbD i = false := BitVec.getLsbD_of_ge c i (Nat.not_lt.mp hi)
      simp [hi, this]
  · simp [h, Nat.lt_of_not_le h]

/-- Clearing twice clears the more bits. -/
theorem clearLow_clearLow (c : ClassId) (m n : Fin 4) : clearLow (clearLow c m) n = clearLow c (max n m) := by
  apply BitVec.eq_of_getLsbD_eq
  intro i _
  simp only [clearLow_getLsbD]
  have : (max n m : Fin 4).val = max n.val m.val := by
    rcases le_total n m with h | h
    · rw [max_eq_right h, max_eq_right (Fin.le_def.mp h)]
    · rw [max_eq_left h, max_eq_left (Fin.le_def.mp h)]
  rw [this, ← Bool.and_assoc]
  congr 1
  simp

@[simp] theorem clearLow_zero (c : ClassId) : clearLow c 0 = c := by
  apply BitVec.eq_of_getLsbD_eq
  intro i _
  simp [clearLow_getLsbD]

@[simp] theorem clearLow_self (c : ClassId) (n : Fin 4) : clearLow (clearLow c n) n = clearLow c n := by
  simp [clearLow_clearLow]

/-- Two entries that match one class id overlap (R26, R37). -/
theorem EntryBody.overlaps_of_matches {b : EntryBody} {c tag : ClassId} {span : Fin 4}
    (hb : b.matchesId c = true) (ht : clearLow c span = tag) : b.overlaps tag span = true := by
  unfold EntryBody.matchesId at hb
  unfold EntryBody.overlaps
  cases hc : b.cover with
  | none => simp [hc] at hb
  | some p =>
    simp only [hc, Option.any_some, decide_eq_true_eq] at hb ⊢
    rw [← ht, ← hb, clearLow_clearLow, clearLow_clearLow, max_comm span p.2, max_assoc, max_self, max_comm p.2 span,
      max_assoc, max_self]

/-- The law of one match (R39), from entries that pairwise do not overlap. -/
theorem State.oneMatch_of_disjoint {s : State}
    (h : ∀ e f : EntryIx, e ≠ f → ∀ p ∈ (s.entryAt e).body.cover, (s.entryAt f).body.overlaps p.1 p.2 = false) :
    s.OneMatch := by
  intro c e f he hf
  by_contra hne
  unfold EntryBody.matchesId at he
  cases hc : (s.entryAt e).body.cover with
  | none => simp [hc] at he
  | some p =>
    simp only [hc, Option.any_some, decide_eq_true_eq] at he
    have := h e f hne p hc
    rw [EntryBody.overlaps_of_matches hf he] at this
    cases this

end Sys2Proof.Machine
end

