-- ==== Sys2Proof/Laws/Check.lean ====
section
/-! SUPPORT. The laws of the part as one computable check, sound for `State.Lawful`: a concrete state is shown lawful by
evaluating it. -/

namespace Sys2Proof.Machine

/-- The check of `BindingsMatch` for one binding. -/
def State.checkBinding (s : State) (h : Head) (b : Binding) : Bool :=
  match (s.entryAt b.entry).body with
  | .invalid => false
  | .fetching tag _ => decide (tag = s.requestedId h ∧ b.variant = 0)
  | .resident tag d => decide (clearLow (s.requestedId h) d.span = tag ∧ b.variant = variantOf (s.requestedId h) tag)

/-- The check of `DescriptorsClamped` for one entry. -/
def EntryBody.checkDesc : EntryBody → Bool
  | .resident tag d =>
    decide (tag = clearLow d.classId d.span ∧ 1 ≤ d.pageCount ∧ d.firstPage + d.pageCount ≤ 64 ∧ d.liquidus ≤ 16000 ∧
      d.maxTemp ≤ 16000 ∧ d.kp ≤ 4095 ∧ d.ki ≤ 1023 ∧ d.settle ≤ 5000 ∧ d.trims.length = 2 ^ d.span.val ∧
      ∀ t ∈ d.trims, -250 ≤ t ∧ t ≤ 250)
  | _ => true

/-- The check of `HeadCtx.Shaped`. -/
def HeadCtx.checkShape (c : HeadCtx) : Bool :=
  match c.state with
  | .disabled | .idle =>
    decide (c.current = none ∧ c.next = none ∧ c.binding = none ∧ c.reqs = none ∧ c.cause = none ∧ c.heldRecord = none)
  | .arming =>
    decide (c.current.any Current.promoted = true ∧ c.reqs.isSome = true ∧ c.cause = none ∧ c.heldRecord = none)
  | .heating =>
    decide (c.current.any Current.promoted = true ∧ c.binding.isSome = true ∧ c.reqs = none ∧ c.cause = none ∧
      c.heldRecord = none)
  | .held =>
    decide (c.current.any Current.promoted = false ∧ (c.next.isSome = true → c.current.isSome = true) ∧
      c.binding = none ∧ c.reqs = none ∧ c.cause = none ∧ c.heldRecord.isSome = true)
  | .faulted =>
    decide (c.current.any Current.promoted = false ∧ (c.next.isSome = true → c.current.isSome = true) ∧
      c.binding = none ∧ c.reqs = none ∧ c.cause.isSome = true)

/-- The check of the laws of one head. -/
def State.checkHead (s : State) (h : Head) : Bool :=
  let c := s.ctxAt h
  let r := s.rowAt h
  decide (r.grant ≤ r.demand) &&
  decide (c.state ≠ .heating → r = {} ∧ ∀ j : Head, ∀ k ∈ (s.rowAt j).cap.toList, k.claimant ≠ h) &&
  decide (c.iAcc ≤ 256 * (s.configAt h).rating ∧ (s.configAt h).rating ≤ Config.powerLimit ∧
    (c.state ≠ .heating → c.iAcc = 0 ∧ c.limited = false)) &&
  c.binding.all (s.checkBinding h) && c.checkShape &&
  decide (c.state ≠ .heating → c.stepTimer = none ∧ c.prefetch = .empty ∧ c.tStart = none ∧ c.feedOwed = false ∧
    c.sampleMark = none ∧ c.dstatMark = none) &&
  decide (c.state ≠ .heating → (s.intakeAt h).staleTimer = none) &&
  decide (c.state = .disabled ↔ (s.configAt h).enable = false) &&
  decide (c.state = .arming → c.binding.isSome = true ∨ ∃ w ∈ s.cache.wait, w.head = h) &&
  decide (c.state = .arming → ∀ k ∈ c.current.toList,
    c.reqs = some (s.requirementsFor h k.asg (s.boundDesc h).isSome)) &&
  decide (c.state = .heating → (s.runningStep h).isSome = true) &&
  decide ((c.assignments.map Assignment.carrier).Nodup ∧ ∀ a ∈ c.assignments, (s.carrierAt a.carrier).isSome = true) &&
  decide (∀ k ∈ c.heldRecord.toList, (s.carrierAt k.carrier).isSome = true)

/-- The check of the laws of the cache. -/
def State.checkCache (s : State) : Bool :=
  decide (∀ e : EntryIx, (s.entryAt e).recency < 8) &&
  decide (∀ e f : EntryIx, (s.entryAt e).recency = (s.entryAt f).recency → e = f) &&
  decide (∀ e f : EntryIx, e ≠ f →
    (s.entryAt e).body.cover.all (fun p => !(s.entryAt f).body.overlaps p.1 p.2) = true) &&
  decide (∀ e : EntryIx, (s.entryAt e).users = (s.boundHeads e).length) &&
  decide (∀ e : EntryIx, (s.entryAt e).body.checkDesc = true) &&
  decide ((s.cache.wait.map Waiter.head).Nodup) &&
  decide (∀ w ∈ s.cache.wait, (s.ctxAt w.head).state = .arming ∧ (s.ctxAt w.head).binding = none ∧
    (s.ctxAt w.head).current.map (fun c => (c.asg.classId, c.asg.refresh)) = some (w.classId, w.refresh))

/-- The check of every law. -/
def State.checkLaws (s : State) : Bool :=
  allHeads.all s.checkHead && s.checkCache &&
  decide (s.grantSum ≤ s.budget ∧ s.budget ≤ Config.budgetLimit) &&
  decide (s.carriers.length ≤ Config.carrierCapacity ∧ (s.carriers.map CarrierEntry.id).Nodup) &&
  decide (∀ c ∈ s.carriers, c.assigned = c.live + c.good + c.reject + c.abort + c.fault + c.notStarted ∧
    c.live = s.liveOf c.id ∧ c.assigned ≤ 16) &&
  decide (∀ c ∈ s.carriers, c.closing = true → c.live = 0 ∧ s.holdsRecordOf c.id = false) &&
  decide (s.queue.length ≤ Config.recordCapacity) && decide (0 < s.recordsWaiting → s.queueHasRoom = false) &&
  decide (s.store.wf = true ∧ ∀ p ∈ s.store, p.1 < Config.stepWords ∧ clampStep p.2 = p.2) &&
  decide ((s.ring.drive.map DriveFrame.head).Nodup) &&
  decide (s.ring.forward.length ≤ Config.forwardCapacity ∧ s.ring.general.length ≤ Config.generalCapacity ∧
    s.ring.reserved = false) &&
  decide (s.cache.wait ≠ [] → s.victim = none) &&
  decide (s.ring.counters.crc ≤ Config.countLimit ∧ s.ring.counters.overflow ≤ Config.countLimit ∧
    s.ring.counters.dropped ≤ Config.countLimit ∧ s.ring.counters.foreign ≤ Config.countLimit) &&
  decide (∀ f ∈ s.ring.drive, (s.ctxAt f.head).state ≠ .heating → f.source = .stop) &&
  decide (s.notices.detected.records = !s.queue.isEmpty ∧
    s.notices.detected.fault = decide (∃ h, (s.ctxAt h).state = .faulted) ∧
    s.notices.detected.claim = decide (∃ h, (s.rowAt h).cap.isSome = true) ∧
    s.notices.pending.diff s.notices.detected = {}) &&
  decide (s.resetHeld = true → s.deviceReset = s) &&
  decide (s.ring.reserved = false ∧ s.notices.reported = {} ∧ s.cache.retryOwed = false)

theorem HeadCtx.shaped_of_check {c : HeadCtx} (h : c.checkShape = true) : c.Shaped := by
  unfold HeadCtx.checkShape at h
  unfold HeadCtx.Shaped
  cases hs : c.state <;> rw [hs] at h <;> exact of_decide_eq_true h

theorem mem_allHeads (h : Head) : h ∈ allHeads := by revert h; decide

/-- A state that passes the check is lawful. -/
theorem State.lawful_of_check {s : State} (hs : s.checkLaws = true) : s.Lawful := by
  unfold State.checkLaws at hs
  simp only [Bool.and_eq_true, decide_eq_true_eq, List.all_eq_true] at hs
  obtain ⟨⟨⟨⟨⟨⟨⟨⟨⟨⟨⟨⟨⟨⟨⟨⟨heads, cache⟩, power⟩, carriers⟩, accounts⟩, closing⟩, queue⟩, waiting⟩, store⟩, drives⟩, ring⟩,
    noVictim⟩, counters⟩, resting⟩, causes⟩, reset⟩, quiet⟩ := hs
  have head := fun h => heads h (mem_allHeads h)
  unfold State.checkHead at head
  unfold State.checkCache at cache
  simp only [Bool.and_eq_true, decide_eq_true_eq, Option.mem_toList] at head cache
  obtain ⟨⟨⟨⟨⟨⟨recLt, recInj⟩, disjoint⟩, users⟩, descs⟩, nodup⟩, wait⟩ := cache
  refine
    { power, demands := fun h => (head h).1.1.1.1.1.1.1.1.1.1.1.1
      resting := fun h hn => ?_
      integrators := fun h => (head h).1.1.1.1.1.1.1.1.1.1.2
      recency := ⟨recLt, recInj⟩
      oneMatch := State.oneMatch_of_disjoint fun e f hne p hp => by
        simpa using (Option.all_eq_true _ _).mp (disjoint e f hne) p hp
      users
      bindings := fun h b hb => ?_
      waiters := ⟨nodup, wait⟩
      descriptors := fun e => ?_
      shaped := fun h => ⟨HeadCtx.shaped_of_check (head h).1.1.1.1.1.1.1.1.2, (head h).1.1.1.1.1.1.1.2,
        (head h).1.1.1.1.1.1.2⟩
      enables := fun h => (head h).1.1.1.1.1.2
      placed := fun h => (head h).1.1.1.1.2
      requirements := fun h ha c hc => (head h).1.1.1.2 ha c hc
      running := fun h => (head h).1.1.2
      carriers, named := fun h => (head h).1.2
      accounts, closing := ⟨closing, fun h r hr => (head h).2 r hr⟩
      queue, waiting, store, drives, ring, noVictim, counters, restingFrames := resting, causes
      resetHolds := reset
      quiet }
  · obtain ⟨a, b⟩ := (head h).1.1.1.1.1.1.1.1.1.1.1.2 hn
    exact ⟨a, fun j c hc => b j c hc⟩
  · have hb' := (head h).1.1.1.1.1.1.1.1.1.2
    rw [Option.all_eq_true] at hb'
    have := hb' b hb
    unfold State.checkBinding at this
    split at this <;> simp_all
  · have this := descs e
    cases hb : (s.entryAt e).body with
    | invalid => trivial
    | fetching tag n => trivial
    | resident tag d =>
      rw [hb] at this
      simpa only [EntryBody.checkDesc, ClassDesc.Clamped, decide_eq_true_eq] using this

end Sys2Proof.Machine
end

