-- ==== Sys2Proof/Laws/State.lean ====
section
/-! SUPPORT. What each named update of State leaves alone and what it writes, field by field: no later proof unfolds a
record update. -/

namespace Sys2Proof.Machine

variable (s : State)

/-! ### modCtx -/

@[simp] theorem State.modCtx_pending (h : Head) (f : HeadCtx → HeadCtx) : (s.modCtx h f).pending = s.pending := rfl
@[simp] theorem State.modCtx_now (h : Head) (f : HeadCtx → HeadCtx) : (s.modCtx h f).now = s.now := rfl
@[simp] theorem State.modCtx_resetHeld (h : Head) (f : HeadCtx → HeadCtx) : (s.modCtx h f).resetHeld = s.resetHeld := rfl
@[simp] theorem State.modCtx_pins (h : Head) (f : HeadCtx → HeadCtx) : (s.modCtx h f).pins = s.pins := rfl
@[simp] theorem State.modCtx_store (h : Head) (f : HeadCtx → HeadCtx) : (s.modCtx h f).store = s.store := rfl
@[simp] theorem State.modCtx_cache (h : Head) (f : HeadCtx → HeadCtx) : (s.modCtx h f).cache = s.cache := rfl
@[simp] theorem State.modCtx_carriers (h : Head) (f : HeadCtx → HeadCtx) : (s.modCtx h f).carriers = s.carriers := rfl
@[simp] theorem State.modCtx_interlock (h : Head) (f : HeadCtx → HeadCtx) : (s.modCtx h f).interlock = s.interlock := rfl
@[simp] theorem State.modCtx_config (h : Head) (f : HeadCtx → HeadCtx) : (s.modCtx h f).config = s.config := rfl
@[simp] theorem State.modCtx_intake (h : Head) (f : HeadCtx → HeadCtx) : (s.modCtx h f).intake = s.intake := rfl
@[simp] theorem State.modCtx_minStrength (h : Head) (f : HeadCtx → HeadCtx) : (s.modCtx h f).minStrength = s.minStrength := rfl
@[simp] theorem State.modCtx_pointer (h : Head) (f : HeadCtx → HeadCtx) : (s.modCtx h f).pointer = s.pointer := rfl
@[simp] theorem State.modCtx_budget (h : Head) (f : HeadCtx → HeadCtx) : (s.modCtx h f).budget = s.budget := rfl
@[simp] theorem State.modCtx_share (h : Head) (f : HeadCtx → HeadCtx) : (s.modCtx h f).share = s.share := rfl
@[simp] theorem State.modCtx_queue (h : Head) (f : HeadCtx → HeadCtx) : (s.modCtx h f).queue = s.queue := rfl
@[simp] theorem State.modCtx_ring (h : Head) (f : HeadCtx → HeadCtx) : (s.modCtx h f).ring = s.ring := rfl
@[simp] theorem State.modCtx_notices (h : Head) (f : HeadCtx → HeadCtx) : (s.modCtx h f).notices = s.notices := rfl
@[simp] theorem State.modCtx_configAt (h : Head) (f : HeadCtx → HeadCtx) (i : Head) : (s.modCtx h f).configAt i = s.configAt i := rfl
@[simp] theorem State.modCtx_intakeAt (h : Head) (f : HeadCtx → HeadCtx) (i : Head) : (s.modCtx h f).intakeAt i = s.intakeAt i := rfl
@[simp] theorem State.modCtx_rowAt (h : Head) (f : HeadCtx → HeadCtx) (i : Head) : (s.modCtx h f).rowAt i = s.rowAt i := rfl
@[simp] theorem State.modCtx_entryAt (h : Head) (f : HeadCtx → HeadCtx) (i : EntryIx) : (s.modCtx h f).entryAt i = s.entryAt i := rfl

/-! ### mapCtx -/

@[simp] theorem State.mapCtx_pending (f : Head → HeadCtx → HeadCtx) : (s.mapCtx f).pending = s.pending := rfl
@[simp] theorem State.mapCtx_now (f : Head → HeadCtx → HeadCtx) : (s.mapCtx f).now = s.now := rfl
@[simp] theorem State.mapCtx_resetHeld (f : Head → HeadCtx → HeadCtx) : (s.mapCtx f).resetHeld = s.resetHeld := rfl
@[simp] theorem State.mapCtx_pins (f : Head → HeadCtx → HeadCtx) : (s.mapCtx f).pins = s.pins := rfl
@[simp] theorem State.mapCtx_store (f : Head → HeadCtx → HeadCtx) : (s.mapCtx f).store = s.store := rfl
@[simp] theorem State.mapCtx_cache (f : Head → HeadCtx → HeadCtx) : (s.mapCtx f).cache = s.cache := rfl
@[simp] theorem State.mapCtx_carriers (f : Head → HeadCtx → HeadCtx) : (s.mapCtx f).carriers = s.carriers := rfl
@[simp] theorem State.mapCtx_interlock (f : Head → HeadCtx → HeadCtx) : (s.mapCtx f).interlock = s.interlock := rfl
@[simp] theorem State.mapCtx_config (f : Head → HeadCtx → HeadCtx) : (s.mapCtx f).config = s.config := rfl
@[simp] theorem State.mapCtx_intake (f : Head → HeadCtx → HeadCtx) : (s.mapCtx f).intake = s.intake := rfl
@[simp] theorem State.mapCtx_minStrength (f : Head → HeadCtx → HeadCtx) : (s.mapCtx f).minStrength = s.minStrength := rfl
@[simp] theorem State.mapCtx_pointer (f : Head → HeadCtx → HeadCtx) : (s.mapCtx f).pointer = s.pointer := rfl
@[simp] theorem State.mapCtx_budget (f : Head → HeadCtx → HeadCtx) : (s.mapCtx f).budget = s.budget := rfl
@[simp] theorem State.mapCtx_share (f : Head → HeadCtx → HeadCtx) : (s.mapCtx f).share = s.share := rfl
@[simp] theorem State.mapCtx_queue (f : Head → HeadCtx → HeadCtx) : (s.mapCtx f).queue = s.queue := rfl
@[simp] theorem State.mapCtx_ring (f : Head → HeadCtx → HeadCtx) : (s.mapCtx f).ring = s.ring := rfl
@[simp] theorem State.mapCtx_notices (f : Head → HeadCtx → HeadCtx) : (s.mapCtx f).notices = s.notices := rfl
@[simp] theorem State.mapCtx_configAt (f : Head → HeadCtx → HeadCtx) (i : Head) : (s.mapCtx f).configAt i = s.configAt i := rfl
@[simp] theorem State.mapCtx_intakeAt (f : Head → HeadCtx → HeadCtx) (i : Head) : (s.mapCtx f).intakeAt i = s.intakeAt i := rfl
@[simp] theorem State.mapCtx_rowAt (f : Head → HeadCtx → HeadCtx) (i : Head) : (s.mapCtx f).rowAt i = s.rowAt i := rfl
@[simp] theorem State.mapCtx_entryAt (f : Head → HeadCtx → HeadCtx) (i : EntryIx) : (s.mapCtx f).entryAt i = s.entryAt i := rfl

/-! ### setConfig -/

@[simp] theorem State.setConfig_pending (h : Head) (c : HeadConfig) : (s.setConfig h c).pending = s.pending := rfl
@[simp] theorem State.setConfig_now (h : Head) (c : HeadConfig) : (s.setConfig h c).now = s.now := rfl
@[simp] theorem State.setConfig_resetHeld (h : Head) (c : HeadConfig) : (s.setConfig h c).resetHeld = s.resetHeld := rfl
@[simp] theorem State.setConfig_pins (h : Head) (c : HeadConfig) : (s.setConfig h c).pins = s.pins := rfl
@[simp] theorem State.setConfig_store (h : Head) (c : HeadConfig) : (s.setConfig h c).store = s.store := rfl
@[simp] theorem State.setConfig_cache (h : Head) (c : HeadConfig) : (s.setConfig h c).cache = s.cache := rfl
@[simp] theorem State.setConfig_carriers (h : Head) (c : HeadConfig) : (s.setConfig h c).carriers = s.carriers := rfl
@[simp] theorem State.setConfig_interlock (h : Head) (c : HeadConfig) : (s.setConfig h c).interlock = s.interlock := rfl
@[simp] theorem State.setConfig_ctx (h : Head) (c : HeadConfig) : (s.setConfig h c).ctx = s.ctx := rfl
@[simp] theorem State.setConfig_intake (h : Head) (c : HeadConfig) : (s.setConfig h c).intake = s.intake := rfl
@[simp] theorem State.setConfig_minStrength (h : Head) (c : HeadConfig) : (s.setConfig h c).minStrength = s.minStrength := rfl
@[simp] theorem State.setConfig_pointer (h : Head) (c : HeadConfig) : (s.setConfig h c).pointer = s.pointer := rfl
@[simp] theorem State.setConfig_budget (h : Head) (c : HeadConfig) : (s.setConfig h c).budget = s.budget := rfl
@[simp] theorem State.setConfig_share (h : Head) (c : HeadConfig) : (s.setConfig h c).share = s.share := rfl
@[simp] theorem State.setConfig_queue (h : Head) (c : HeadConfig) : (s.setConfig h c).queue = s.queue := rfl
@[simp] theorem State.setConfig_ring (h : Head) (c : HeadConfig) : (s.setConfig h c).ring = s.ring := rfl
@[simp] theorem State.setConfig_notices (h : Head) (c : HeadConfig) : (s.setConfig h c).notices = s.notices := rfl
@[simp] theorem State.setConfig_ctxAt (h : Head) (c : HeadConfig) (i : Head) : (s.setConfig h c).ctxAt i = s.ctxAt i := rfl
@[simp] theorem State.setConfig_intakeAt (h : Head) (c : HeadConfig) (i : Head) : (s.setConfig h c).intakeAt i = s.intakeAt i := rfl
@[simp] theorem State.setConfig_rowAt (h : Head) (c : HeadConfig) (i : Head) : (s.setConfig h c).rowAt i = s.rowAt i := rfl
@[simp] theorem State.setConfig_entryAt (h : Head) (c : HeadConfig) (i : EntryIx) : (s.setConfig h c).entryAt i = s.entryAt i := rfl

/-! ### modIntake -/

@[simp] theorem State.modIntake_pending (h : Head) (f : Intake → Intake) : (s.modIntake h f).pending = s.pending := rfl
@[simp] theorem State.modIntake_now (h : Head) (f : Intake → Intake) : (s.modIntake h f).now = s.now := rfl
@[simp] theorem State.modIntake_resetHeld (h : Head) (f : Intake → Intake) : (s.modIntake h f).resetHeld = s.resetHeld := rfl
@[simp] theorem State.modIntake_pins (h : Head) (f : Intake → Intake) : (s.modIntake h f).pins = s.pins := rfl
@[simp] theorem State.modIntake_store (h : Head) (f : Intake → Intake) : (s.modIntake h f).store = s.store := rfl
@[simp] theorem State.modIntake_cache (h : Head) (f : Intake → Intake) : (s.modIntake h f).cache = s.cache := rfl
@[simp] theorem State.modIntake_carriers (h : Head) (f : Intake → Intake) : (s.modIntake h f).carriers = s.carriers := rfl
@[simp] theorem State.modIntake_interlock (h : Head) (f : Intake → Intake) : (s.modIntake h f).interlock = s.interlock := rfl
@[simp] theorem State.modIntake_config (h : Head) (f : Intake → Intake) : (s.modIntake h f).config = s.config := rfl
@[simp] theorem State.modIntake_ctx (h : Head) (f : Intake → Intake) : (s.modIntake h f).ctx = s.ctx := rfl
@[simp] theorem State.modIntake_minStrength (h : Head) (f : Intake → Intake) : (s.modIntake h f).minStrength = s.minStrength := rfl
@[simp] theorem State.modIntake_pointer (h : Head) (f : Intake → Intake) : (s.modIntake h f).pointer = s.pointer := rfl
@[simp] theorem State.modIntake_budget (h : Head) (f : Intake → Intake) : (s.modIntake h f).budget = s.budget := rfl
@[simp] theorem State.modIntake_share (h : Head) (f : Intake → Intake) : (s.modIntake h f).share = s.share := rfl
@[simp] theorem State.modIntake_queue (h : Head) (f : Intake → Intake) : (s.modIntake h f).queue = s.queue := rfl
@[simp] theorem State.modIntake_ring (h : Head) (f : Intake → Intake) : (s.modIntake h f).ring = s.ring := rfl
@[simp] theorem State.modIntake_notices (h : Head) (f : Intake → Intake) : (s.modIntake h f).notices = s.notices := rfl
@[simp] theorem State.modIntake_ctxAt (h : Head) (f : Intake → Intake) (i : Head) : (s.modIntake h f).ctxAt i = s.ctxAt i := rfl
@[simp] theorem State.modIntake_configAt (h : Head) (f : Intake → Intake) (i : Head) : (s.modIntake h f).configAt i = s.configAt i := rfl
@[simp] theorem State.modIntake_rowAt (h : Head) (f : Intake → Intake) (i : Head) : (s.modIntake h f).rowAt i = s.rowAt i := rfl
@[simp] theorem State.modIntake_entryAt (h : Head) (f : Intake → Intake) (i : EntryIx) : (s.modIntake h f).entryAt i = s.entryAt i := rfl

/-! ### modRow -/

@[simp] theorem State.modRow_pending (h : Head) (f : Row → Row) : (s.modRow h f).pending = s.pending := rfl
@[simp] theorem State.modRow_now (h : Head) (f : Row → Row) : (s.modRow h f).now = s.now := rfl
@[simp] theorem State.modRow_resetHeld (h : Head) (f : Row → Row) : (s.modRow h f).resetHeld = s.resetHeld := rfl
@[simp] theorem State.modRow_pins (h : Head) (f : Row → Row) : (s.modRow h f).pins = s.pins := rfl
@[simp] theorem State.modRow_store (h : Head) (f : Row → Row) : (s.modRow h f).store = s.store := rfl
@[simp] theorem State.modRow_cache (h : Head) (f : Row → Row) : (s.modRow h f).cache = s.cache := rfl
@[simp] theorem State.modRow_carriers (h : Head) (f : Row → Row) : (s.modRow h f).carriers = s.carriers := rfl
@[simp] theorem State.modRow_interlock (h : Head) (f : Row → Row) : (s.modRow h f).interlock = s.interlock := rfl
@[simp] theorem State.modRow_config (h : Head) (f : Row → Row) : (s.modRow h f).config = s.config := rfl
@[simp] theorem State.modRow_ctx (h : Head) (f : Row → Row) : (s.modRow h f).ctx = s.ctx := rfl
@[simp] theorem State.modRow_intake (h : Head) (f : Row → Row) : (s.modRow h f).intake = s.intake := rfl
@[simp] theorem State.modRow_minStrength (h : Head) (f : Row → Row) : (s.modRow h f).minStrength = s.minStrength := rfl
@[simp] theorem State.modRow_pointer (h : Head) (f : Row → Row) : (s.modRow h f).pointer = s.pointer := rfl
@[simp] theorem State.modRow_budget (h : Head) (f : Row → Row) : (s.modRow h f).budget = s.budget := rfl
@[simp] theorem State.modRow_queue (h : Head) (f : Row → Row) : (s.modRow h f).queue = s.queue := rfl
@[simp] theorem State.modRow_ring (h : Head) (f : Row → Row) : (s.modRow h f).ring = s.ring := rfl
@[simp] theorem State.modRow_notices (h : Head) (f : Row → Row) : (s.modRow h f).notices = s.notices := rfl
@[simp] theorem State.modRow_ctxAt (h : Head) (f : Row → Row) (i : Head) : (s.modRow h f).ctxAt i = s.ctxAt i := rfl
@[simp] theorem State.modRow_configAt (h : Head) (f : Row → Row) (i : Head) : (s.modRow h f).configAt i = s.configAt i := rfl
@[simp] theorem State.modRow_intakeAt (h : Head) (f : Row → Row) (i : Head) : (s.modRow h f).intakeAt i = s.intakeAt i := rfl
@[simp] theorem State.modRow_entryAt (h : Head) (f : Row → Row) (i : EntryIx) : (s.modRow h f).entryAt i = s.entryAt i := rfl

/-! ### modCache -/

@[simp] theorem State.modCache_pending (f : ClassCache → ClassCache) : (s.modCache f).pending = s.pending := rfl
@[simp] theorem State.modCache_now (f : ClassCache → ClassCache) : (s.modCache f).now = s.now := rfl
@[simp] theorem State.modCache_resetHeld (f : ClassCache → ClassCache) : (s.modCache f).resetHeld = s.resetHeld := rfl
@[simp] theorem State.modCache_pins (f : ClassCache → ClassCache) : (s.modCache f).pins = s.pins := rfl
@[simp] theorem State.modCache_store (f : ClassCache → ClassCache) : (s.modCache f).store = s.store := rfl
@[simp] theorem State.modCache_carriers (f : ClassCache → ClassCache) : (s.modCache f).carriers = s.carriers := rfl
@[simp] theorem State.modCache_interlock (f : ClassCache → ClassCache) : (s.modCache f).interlock = s.interlock := rfl
@[simp] theorem State.modCache_config (f : ClassCache → ClassCache) : (s.modCache f).config = s.config := rfl
@[simp] theorem State.modCache_ctx (f : ClassCache → ClassCache) : (s.modCache f).ctx = s.ctx := rfl
@[simp] theorem State.modCache_intake (f : ClassCache → ClassCache) : (s.modCache f).intake = s.intake := rfl
@[simp] theorem State.modCache_minStrength (f : ClassCache → ClassCache) : (s.modCache f).minStrength = s.minStrength := rfl
@[simp] theorem State.modCache_pointer (f : ClassCache → ClassCache) : (s.modCache f).pointer = s.pointer := rfl
@[simp] theorem State.modCache_budget (f : ClassCache → ClassCache) : (s.modCache f).budget = s.budget := rfl
@[simp] theorem State.modCache_share (f : ClassCache → ClassCache) : (s.modCache f).share = s.share := rfl
@[simp] theorem State.modCache_queue (f : ClassCache → ClassCache) : (s.modCache f).queue = s.queue := rfl
@[simp] theorem State.modCache_ring (f : ClassCache → ClassCache) : (s.modCache f).ring = s.ring := rfl
@[simp] theorem State.modCache_notices (f : ClassCache → ClassCache) : (s.modCache f).notices = s.notices := rfl
@[simp] theorem State.modCache_ctxAt (f : ClassCache → ClassCache) (i : Head) : (s.modCache f).ctxAt i = s.ctxAt i := rfl
@[simp] theorem State.modCache_configAt (f : ClassCache → ClassCache) (i : Head) : (s.modCache f).configAt i = s.configAt i := rfl
@[simp] theorem State.modCache_intakeAt (f : ClassCache → ClassCache) (i : Head) : (s.modCache f).intakeAt i = s.intakeAt i := rfl
@[simp] theorem State.modCache_rowAt (f : ClassCache → ClassCache) (i : Head) : (s.modCache f).rowAt i = s.rowAt i := rfl

/-! ### modEntry -/

@[simp] theorem State.modEntry_pending (e : EntryIx) (f : Entry → Entry) : (s.modEntry e f).pending = s.pending := rfl
@[simp] theorem State.modEntry_now (e : EntryIx) (f : Entry → Entry) : (s.modEntry e f).now = s.now := rfl
@[simp] theorem State.modEntry_resetHeld (e : EntryIx) (f : Entry → Entry) : (s.modEntry e f).resetHeld = s.resetHeld := rfl
@[simp] theorem State.modEntry_pins (e : EntryIx) (f : Entry → Entry) : (s.modEntry e f).pins = s.pins := rfl
@[simp] theorem State.modEntry_store (e : EntryIx) (f : Entry → Entry) : (s.modEntry e f).store = s.store := rfl
@[simp] theorem State.modEntry_carriers (e : EntryIx) (f : Entry → Entry) : (s.modEntry e f).carriers = s.carriers := rfl
@[simp] theorem State.modEntry_interlock (e : EntryIx) (f : Entry → Entry) : (s.modEntry e f).interlock = s.interlock := rfl
@[simp] theorem State.modEntry_config (e : EntryIx) (f : Entry → Entry) : (s.modEntry e f).config = s.config := rfl
@[simp] theorem State.modEntry_ctx (e : EntryIx) (f : Entry → Entry) : (s.modEntry e f).ctx = s.ctx := rfl
@[simp] theorem State.modEntry_intake (e : EntryIx) (f : Entry → Entry) : (s.modEntry e f).intake = s.intake := rfl
@[simp] theorem State.modEntry_minStrength (e : EntryIx) (f : Entry → Entry) : (s.modEntry e f).minStrength = s.minStrength := rfl
@[simp] theorem State.modEntry_pointer (e : EntryIx) (f : Entry → Entry) : (s.modEntry e f).pointer = s.pointer := rfl
@[simp] theorem State.modEntry_budget (e : EntryIx) (f : Entry → Entry) : (s.modEntry e f).budget = s.budget := rfl
@[simp] theorem State.modEntry_share (e : EntryIx) (f : Entry → Entry) : (s.modEntry e f).share = s.share := rfl
@[simp] theorem State.modEntry_queue (e : EntryIx) (f : Entry → Entry) : (s.modEntry e f).queue = s.queue := rfl
@[simp] theorem State.modEntry_ring (e : EntryIx) (f : Entry → Entry) : (s.modEntry e f).ring = s.ring := rfl
@[simp] theorem State.modEntry_notices (e : EntryIx) (f : Entry → Entry) : (s.modEntry e f).notices = s.notices := rfl
@[simp] theorem State.modEntry_ctxAt (e : EntryIx) (f : Entry → Entry) (i : Head) : (s.modEntry e f).ctxAt i = s.ctxAt i := rfl
@[simp] theorem State.modEntry_configAt (e : EntryIx) (f : Entry → Entry) (i : Head) : (s.modEntry e f).configAt i = s.configAt i := rfl
@[simp] theorem State.modEntry_intakeAt (e : EntryIx) (f : Entry → Entry) (i : Head) : (s.modEntry e f).intakeAt i = s.intakeAt i := rfl
@[simp] theorem State.modEntry_rowAt (e : EntryIx) (f : Entry → Entry) (i : Head) : (s.modEntry e f).rowAt i = s.rowAt i := rfl

/-! ### modRing -/

@[simp] theorem State.modRing_pending (f : RingPort → RingPort) : (s.modRing f).pending = s.pending := rfl
@[simp] theorem State.modRing_now (f : RingPort → RingPort) : (s.modRing f).now = s.now := rfl
@[simp] theorem State.modRing_resetHeld (f : RingPort → RingPort) : (s.modRing f).resetHeld = s.resetHeld := rfl
@[simp] theorem State.modRing_pins (f : RingPort → RingPort) : (s.modRing f).pins = s.pins := rfl
@[simp] theorem State.modRing_store (f : RingPort → RingPort) : (s.modRing f).store = s.store := rfl
@[simp] theorem State.modRing_cache (f : RingPort → RingPort) : (s.modRing f).cache = s.cache := rfl
@[simp] theorem State.modRing_carriers (f : RingPort → RingPort) : (s.modRing f).carriers = s.carriers := rfl
@[simp] theorem State.modRing_interlock (f : RingPort → RingPort) : (s.modRing f).interlock = s.interlock := rfl
@[simp] theorem State.modRing_config (f : RingPort → RingPort) : (s.modRing f).config = s.config := rfl
@[simp] theorem State.modRing_ctx (f : RingPort → RingPort) : (s.modRing f).ctx = s.ctx := rfl
@[simp] theorem State.modRing_intake (f : RingPort → RingPort) : (s.modRing f).intake = s.intake := rfl
@[simp] theorem State.modRing_minStrength (f : RingPort → RingPort) : (s.modRing f).minStrength = s.minStrength := rfl
@[simp] theorem State.modRing_pointer (f : RingPort → RingPort) : (s.modRing f).pointer = s.pointer := rfl
@[simp] theorem State.modRing_budget (f : RingPort → RingPort) : (s.modRing f).budget = s.budget := rfl
@[simp] theorem State.modRing_share (f : RingPort → RingPort) : (s.modRing f).share = s.share := rfl
@[simp] theorem State.modRing_queue (f : RingPort → RingPort) : (s.modRing f).queue = s.queue := rfl
@[simp] theorem State.modRing_notices (f : RingPort → RingPort) : (s.modRing f).notices = s.notices := rfl
@[simp] theorem State.modRing_ctxAt (f : RingPort → RingPort) (i : Head) : (s.modRing f).ctxAt i = s.ctxAt i := rfl
@[simp] theorem State.modRing_configAt (f : RingPort → RingPort) (i : Head) : (s.modRing f).configAt i = s.configAt i := rfl
@[simp] theorem State.modRing_intakeAt (f : RingPort → RingPort) (i : Head) : (s.modRing f).intakeAt i = s.intakeAt i := rfl
@[simp] theorem State.modRing_rowAt (f : RingPort → RingPort) (i : Head) : (s.modRing f).rowAt i = s.rowAt i := rfl
@[simp] theorem State.modRing_entryAt (f : RingPort → RingPort) (i : EntryIx) : (s.modRing f).entryAt i = s.entryAt i := rfl

/-! ### modNotices -/

@[simp] theorem State.modNotices_pending (f : Notices → Notices) : (s.modNotices f).pending = s.pending := rfl
@[simp] theorem State.modNotices_now (f : Notices → Notices) : (s.modNotices f).now = s.now := rfl
@[simp] theorem State.modNotices_resetHeld (f : Notices → Notices) : (s.modNotices f).resetHeld = s.resetHeld := rfl
@[simp] theorem State.modNotices_pins (f : Notices → Notices) : (s.modNotices f).pins = s.pins := rfl
@[simp] theorem State.modNotices_store (f : Notices → Notices) : (s.modNotices f).store = s.store := rfl
@[simp] theorem State.modNotices_cache (f : Notices → Notices) : (s.modNotices f).cache = s.cache := rfl
@[simp] theorem State.modNotices_carriers (f : Notices → Notices) : (s.modNotices f).carriers = s.carriers := rfl
@[simp] theorem State.modNotices_interlock (f : Notices → Notices) : (s.modNotices f).interlock = s.interlock := rfl
@[simp] theorem State.modNotices_config (f : Notices → Notices) : (s.modNotices f).config = s.config := rfl
@[simp] theorem State.modNotices_ctx (f : Notices → Notices) : (s.modNotices f).ctx = s.ctx := rfl
@[simp] theorem State.modNotices_intake (f : Notices → Notices) : (s.modNotices f).intake = s.intake := rfl
@[simp] theorem State.modNotices_minStrength (f : Notices → Notices) : (s.modNotices f).minStrength = s.minStrength := rfl
@[simp] theorem State.modNotices_pointer (f : Notices → Notices) : (s.modNotices f).pointer = s.pointer := rfl
@[simp] theorem State.modNotices_budget (f : Notices → Notices) : (s.modNotices f).budget = s.budget := rfl
@[simp] theorem State.modNotices_share (f : Notices → Notices) : (s.modNotices f).share = s.share := rfl
@[simp] theorem State.modNotices_queue (f : Notices → Notices) : (s.modNotices f).queue = s.queue := rfl
@[simp] theorem State.modNotices_ring (f : Notices → Notices) : (s.modNotices f).ring = s.ring := rfl
@[simp] theorem State.modNotices_ctxAt (f : Notices → Notices) (i : Head) : (s.modNotices f).ctxAt i = s.ctxAt i := rfl
@[simp] theorem State.modNotices_configAt (f : Notices → Notices) (i : Head) : (s.modNotices f).configAt i = s.configAt i := rfl
@[simp] theorem State.modNotices_intakeAt (f : Notices → Notices) (i : Head) : (s.modNotices f).intakeAt i = s.intakeAt i := rfl
@[simp] theorem State.modNotices_rowAt (f : Notices → Notices) (i : Head) : (s.modNotices f).rowAt i = s.rowAt i := rfl
@[simp] theorem State.modNotices_entryAt (f : Notices → Notices) (i : EntryIx) : (s.modNotices f).entryAt i = s.entryAt i := rfl

/-! ### modCarrier -/

@[simp] theorem State.modCarrier_pending (id : CarrierId) (f : CarrierEntry → CarrierEntry) : (s.modCarrier id f).pending = s.pending := rfl
@[simp] theorem State.modCarrier_now (id : CarrierId) (f : CarrierEntry → CarrierEntry) : (s.modCarrier id f).now = s.now := rfl
@[simp] theorem State.modCarrier_resetHeld (id : CarrierId) (f : CarrierEntry → CarrierEntry) : (s.modCarrier id f).resetHeld = s.resetHeld := rfl
@[simp] theorem State.modCarrier_pins (id : CarrierId) (f : CarrierEntry → CarrierEntry) : (s.modCarrier id f).pins = s.pins := rfl
@[simp] theorem State.modCarrier_store (id : CarrierId) (f : CarrierEntry → CarrierEntry) : (s.modCarrier id f).store = s.store := rfl
@[simp] theorem State.modCarrier_cache (id : CarrierId) (f : CarrierEntry → CarrierEntry) : (s.modCarrier id f).cache = s.cache := rfl
@[simp] theorem State.modCarrier_interlock (id : CarrierId) (f : CarrierEntry → CarrierEntry) : (s.modCarrier id f).interlock = s.interlock := rfl
@[simp] theorem State.modCarrier_config (id : CarrierId) (f : CarrierEntry → CarrierEntry) : (s.modCarrier id f).config = s.config := rfl
@[simp] theorem State.modCarrier_ctx (id : CarrierId) (f : CarrierEntry → CarrierEntry) : (s.modCarrier id f).ctx = s.ctx := rfl
@[simp] theorem State.modCarrier_intake (id : CarrierId) (f : CarrierEntry → CarrierEntry) : (s.modCarrier id f).intake = s.intake := rfl
@[simp] theorem State.modCarrier_minStrength (id : CarrierId) (f : CarrierEntry → CarrierEntry) : (s.modCarrier id f).minStrength = s.minStrength := rfl
@[simp] theorem State.modCarrier_pointer (id : CarrierId) (f : CarrierEntry → CarrierEntry) : (s.modCarrier id f).pointer = s.pointer := rfl
@[simp] theorem State.modCarrier_budget (id : CarrierId) (f : CarrierEntry → CarrierEntry) : (s.modCarrier id f).budget = s.budget := rfl
@[simp] theorem State.modCarrier_share (id : CarrierId) (f : CarrierEntry → CarrierEntry) : (s.modCarrier id f).share = s.share := rfl
@[simp] theorem State.modCarrier_queue (id : CarrierId) (f : CarrierEntry → CarrierEntry) : (s.modCarrier id f).queue = s.queue := rfl
@[simp] theorem State.modCarrier_ring (id : CarrierId) (f : CarrierEntry → CarrierEntry) : (s.modCarrier id f).ring = s.ring := rfl
@[simp] theorem State.modCarrier_notices (id : CarrierId) (f : CarrierEntry → CarrierEntry) : (s.modCarrier id f).notices = s.notices := rfl
@[simp] theorem State.modCarrier_ctxAt (id : CarrierId) (f : CarrierEntry → CarrierEntry) (i : Head) : (s.modCarrier id f).ctxAt i = s.ctxAt i := rfl
@[simp] theorem State.modCarrier_configAt (id : CarrierId) (f : CarrierEntry → CarrierEntry) (i : Head) : (s.modCarrier id f).configAt i = s.configAt i := rfl
@[simp] theorem State.modCarrier_intakeAt (id : CarrierId) (f : CarrierEntry → CarrierEntry) (i : Head) : (s.modCarrier id f).intakeAt i = s.intakeAt i := rfl
@[simp] theorem State.modCarrier_rowAt (id : CarrierId) (f : CarrierEntry → CarrierEntry) (i : Head) : (s.modCarrier id f).rowAt i = s.rowAt i := rfl
@[simp] theorem State.modCarrier_entryAt (id : CarrierId) (f : CarrierEntry → CarrierEntry) (i : EntryIx) : (s.modCarrier id f).entryAt i = s.entryAt i := rfl

/-! ### What each update writes -/

theorem State.modCtx_ctxAt (h i : Head) (f : HeadCtx → HeadCtx) :
    (s.modCtx h f).ctxAt i = if i = h then f (s.ctxAt h) else s.ctxAt i := by
  rcases eq_or_ne i h with rfl | hne
  · simp [State.modCtx, State.ctxAt]
  · have hv : h.val ≠ i.val := fun h => hne (Fin.ext h.symm)
    simp [State.modCtx, State.ctxAt, Vector.getElem_set_ne, hv, hne]

@[simp] theorem State.modCtx_ctxAt_self (h : Head) (f : HeadCtx → HeadCtx) :
    (s.modCtx h f).ctxAt h = f (s.ctxAt h) := by
  simp [State.modCtx_ctxAt]

theorem State.modCtx_ctxAt_of_ne {h i : Head} (hi : i ≠ h) (f : HeadCtx → HeadCtx) :
    (s.modCtx h f).ctxAt i = s.ctxAt i := by
  simp [State.modCtx_ctxAt, hi]

theorem State.modIntake_intakeAt (h i : Head) (f : Intake → Intake) :
    (s.modIntake h f).intakeAt i = if i = h then f (s.intakeAt h) else s.intakeAt i := by
  rcases eq_or_ne i h with rfl | hne
  · simp [State.modIntake, State.intakeAt]
  · have hv : h.val ≠ i.val := fun h => hne (Fin.ext h.symm)
    simp [State.modIntake, State.intakeAt, Vector.getElem_set_ne, hv, hne]

@[simp] theorem State.modIntake_intakeAt_self (h : Head) (f : Intake → Intake) :
    (s.modIntake h f).intakeAt h = f (s.intakeAt h) := by
  simp [State.modIntake_intakeAt]

theorem State.modIntake_intakeAt_of_ne {h i : Head} (hi : i ≠ h) (f : Intake → Intake) :
    (s.modIntake h f).intakeAt i = s.intakeAt i := by
  simp [State.modIntake_intakeAt, hi]

theorem State.modRow_rowAt (h i : Head) (f : Row → Row) :
    (s.modRow h f).rowAt i = if i = h then f (s.rowAt h) else s.rowAt i := by
  rcases eq_or_ne i h with rfl | hne
  · simp [State.modRow, State.rowAt]
  · have hv : h.val ≠ i.val := fun h => hne (Fin.ext h.symm)
    simp [State.modRow, State.rowAt, Vector.getElem_set_ne, hv, hne]

@[simp] theorem State.modRow_rowAt_self (h : Head) (f : Row → Row) :
    (s.modRow h f).rowAt h = f (s.rowAt h) := by
  simp [State.modRow_rowAt]

theorem State.modRow_rowAt_of_ne {h i : Head} (hi : i ≠ h) (f : Row → Row) :
    (s.modRow h f).rowAt i = s.rowAt i := by
  simp [State.modRow_rowAt, hi]

theorem State.modEntry_entryAt (e i : EntryIx) (f : Entry → Entry) :
    (s.modEntry e f).entryAt i = if i = e then f (s.entryAt e) else s.entryAt i := by
  rcases eq_or_ne i e with rfl | hne
  · simp [State.modEntry, State.entryAt, State.modCache]
  · have hv : e.val ≠ i.val := fun h => hne (Fin.ext h.symm)
    simp [State.modEntry, State.entryAt, State.modCache, Vector.getElem_set_ne, hv, hne]

@[simp] theorem State.modEntry_entryAt_self (e : EntryIx) (f : Entry → Entry) :
    (s.modEntry e f).entryAt e = f (s.entryAt e) := by
  simp [State.modEntry_entryAt]

theorem State.modEntry_entryAt_of_ne {e i : EntryIx} (hi : i ≠ e) (f : Entry → Entry) :
    (s.modEntry e f).entryAt i = s.entryAt i := by
  simp [State.modEntry_entryAt, hi]

@[simp] theorem State.mapCtx_ctxAt (h : Head) (f : Head → HeadCtx → HeadCtx) :
    (s.mapCtx f).ctxAt h = f h (s.ctxAt h) := by
  simp [State.mapCtx, State.ctxAt]

theorem State.setConfig_configAt (h i : Head) (c : HeadConfig) :
    (s.setConfig h c).configAt i = if i = h then c else s.configAt i := by
  rcases eq_or_ne i h with rfl | hne
  · simp [State.setConfig, State.configAt]
  · have hv : h.val ≠ i.val := fun e => hne (Fin.ext e.symm)
    simp [State.setConfig, State.configAt, Vector.getElem_set_ne, hv, hne]

@[simp] theorem State.modCache_cache (f : ClassCache → ClassCache) : (s.modCache f).cache = f s.cache := rfl

@[simp] theorem State.modRing_ring (f : RingPort → RingPort) : (s.modRing f).ring = f s.ring := rfl

@[simp] theorem State.modNotices_notices (f : Notices → Notices) : (s.modNotices f).notices = f s.notices := rfl

@[simp] theorem State.modCarrier_carriers (id : CarrierId) (f : CarrierEntry → CarrierEntry) :
    (s.modCarrier id f).carriers = s.carriers.map fun c => if c.id = id then f c else c := rfl

end Sys2Proof.Machine
end

