-- ==== Sys2Proof/Laws/Cycle.lean ====
section
/-! SUPPORT. What the work after an event can do: the wait-list retry, an unbind, the starts of ready heads, the closing
test, and the record of a termination. -/

namespace Sys2Proof.Machine

variable {s : State}

/-! ### The cache-wait list and unbinding (R33, R34) -/

/-- No event of R33, no retry. -/
theorem State.runRetry_of_not_owed (h : s.cache.retryOwed = false) : s.runRetry = s := by
  simp [State.runRetry, h]

/-- With no head waiting a retry does nothing but clear its mark. -/
theorem State.runRetry_of_no_wait (h : s.cache.wait = []) :
    s.runRetry = s.modCache fun k => { k with retryOwed := false } := by
  obtain ⟨_, _, _, _, _, ⟨_, _, _, owed⟩⟩ := s
  simp only at h
  subst h
  cases owed <;> rfl

/-- A retry never leaves its mark. -/
theorem State.runRetry_retryOwed (s : State) : s.runRetry.cache.retryOwed = false := by
  simp only [State.runRetry]
  split
  · rfl
  · simpa using ‹¬s.cache.retryOwed = true›

theorem State.unbind_of_none {h : Head} (hb : (s.ctxAt h).binding = none) : s.unbind h = s := by
  simp [State.unbind, hb]

/-- An unbind removes the binding and lowers the user count of its entry; bodies and recency positions stay (R34). -/
theorem State.unbind_eq {h : Head} {b : Binding} (hb : (s.ctxAt h).binding = some b) :
    (∀ j, (s.unbind h).ctxAt j = if j = h then { s.ctxAt h with binding := none } else s.ctxAt j) ∧
      ∀ e, (s.unbind h).entryAt e =
        { s.entryAt e with users := (s.entryAt e).users - if e = b.entry then 1 else 0 } := by
  have owed (u : State) : (∀ j, u.oweRetry.ctxAt j = u.ctxAt j) ∧ ∀ e, u.oweRetry.entryAt e = u.entryAt e :=
    ⟨fun _ => rfl, fun _ => rfl⟩
  have core : ∀ u : State, u = (s.modCtx h fun c => { c with binding := none }).modEntry b.entry
      (fun x => { x with users := x.users - 1 }) →
      (∀ j, u.ctxAt j = if j = h then { s.ctxAt h with binding := none } else s.ctxAt j) ∧
        ∀ e, u.entryAt e = { s.entryAt e with users := (s.entryAt e).users - if e = b.entry then 1 else 0 } := by
    rintro u rfl
    refine ⟨fun j => ?_, fun e => ?_⟩
    · by_cases hj : j = h
      · subst hj; simp
      · simp [State.modCtx_ctxAt_of_ne _ hj, hj]
    · by_cases he : e = b.entry
      · subst he; simp
      · simp [State.modEntry_entryAt_of_ne _ he, he]
  simp only [State.unbind, hb]
  split
  · exact ⟨fun j => ((owed _).1 j).trans ((core _ rfl).1 j), fun e => ((owed _).2 e).trans ((core _ rfl).2 e)⟩
  · exact core _ rfl

/-! ### Starts and closing (R52, R60) -/

/-- With no head ready nothing starts. -/
theorem State.startReady_of_none (h : s.firstReady = none) : s.startReady = s := by
  simp [State.startReady, startLoop, h]

/-- The first start: the ready head of the lowest number. -/
theorem startLoop_of_some {n : Nat} {h : Head} {d : ClassDesc} (hr : s.firstReady = some (h, d)) :
    startLoop (n + 1) s = startLoop n ((s.startCycle h d).finish h) := by
  simp [startLoop, hr]

theorem State.readyDesc_iff {h : Head} {d : ClassDesc} :
    s.readyDesc h = some d ↔ (s.ctxAt h).state = .arming ∧
      (s.ctxAt h).reqs = some { bound := true, purge := true, released := true, interlock := true, settle := true } ∧
      s.boundDesc h = some d := by
  unfold State.readyDesc
  split
  · rename_i hc; simp [hc]
  · rename_i hc
    simp only [reduceCtorEq, false_iff]
    exact fun hd => hc ⟨hd.1, hd.2.1⟩

/-- No head is ready exactly where each head in ARMING lacks a requirement or a resident class. -/
theorem State.firstReady_none_iff : s.firstReady = none ↔ ∀ h, s.readyDesc h = none := by
  simp [State.firstReady, mem_allHeads]

theorem closeEntries_of_none {cs : List CarrierEntry} (h : ∀ c ∈ cs, s.closes c = false) : closeEntries cs s = s := by
  induction cs with
  | nil => rfl
  | cons c cs ih => simp [closeEntries, h c (by simp), ih fun c hc => h c (by simp [hc])]

/-- Where no entry can close the closing test does nothing. -/
theorem State.closeCarriers_of_none (h : ∀ c ∈ s.carriers, s.closes c = false) : s.closeCarriers = s :=
  closeEntries_of_none h

/-- Where nothing is due the end of an event adds nothing. -/
theorem State.Settled.conclude (h : s.Settled) : s.conclude = s := by
  rw [State.conclude, State.closeCarriers_of_none h.2, State.startReady_of_none h.1, State.closeCarriers_of_none h.2]

/-! ### Records (R140) -/

/-- The offer of a joint record: into the queue, or into the head's slot where there is no room. -/
theorem State.offerJoint_queue (s : State) (h : Head) (r : JointRecord) :
    (s.offerJoint h r).queue = (if s.queueHasRoom then s.queue ++ [.joint r] else s.queue) ∧
      (∀ j, ((s.offerJoint h r).ctxAt j).heldRecord =
        if j = h ∧ s.queueHasRoom = false then some r else (s.ctxAt j).heldRecord) := by
  unfold State.offerJoint
  by_cases hq : s.queueHasRoom = true
  · rw [if_pos hq, if_pos hq]
    refine ⟨rfl, fun j => ?_⟩
    rw [if_neg (by simp [hq])]
    rfl
  · rw [if_neg hq, if_neg hq]
    refine ⟨rfl, fun j => ?_⟩
    by_cases hj : j = h
    · subst hj; simp [hq]
    · simp [State.modCtx_ctxAt_of_ne _ hj, hj]

/-! ### The words of the statements -/

@[simp] theorem State.freed_ctxAt (h i : Head) : (s.freed h).ctxAt i = s.ctxAt i := rfl
@[simp] theorem State.freed_entryAt (h : Head) (e : EntryIx) :
    (s.freed h).entryAt e = { s.entryAt e with
      users := (s.entryAt e).users - if (s.ctxAt h).binding.any fun b => b.entry = e then 1 else 0 } := by
  simp [State.freed, State.entryAt]
@[simp] theorem State.runOut_rowAt (h i : Head) : (s.runOut h).rowAt i = s.rowAt i := rfl
@[simp] theorem State.runOut_entryAt (h : Head) (e : EntryIx) : (s.runOut h).entryAt e = s.entryAt e := rfl

/-- The run-out timer is written in one context alone. -/
theorem State.runOut_eq (h : Head) : s.runOut h = s.modCtx h fun c => { c with stepTimer := some 0 } := rfl

@[simp] theorem State.withReqs_ctxAt (named : Head → Bool) (f : Requirements → Requirements) (h : Head) :
    (s.withReqs named f).ctxAt h =
      if (s.ctxAt h).state = .arming ∧ named h = true then { s.ctxAt h with reqs := (s.ctxAt h).reqs.map f }
      else s.ctxAt h := by
  simp [State.withReqs, State.ctxAt]

@[simp] theorem State.withStarts_ctxAt (t : State) (h : Head) :
    (s.withStarts t).ctxAt h = match s.readyDesc h with
      | some d => s.startedCtx h d
      | none => s.ctxAt h := by
  cases hr : s.readyDesc h <;> simp [State.withStarts, State.ctxAt, hr]

@[simp] theorem State.chained_ctxAt_of_ne {h i : Head} (w : StepWord) (d : ClassDesc) (hi : i ≠ h) :
    (s.chained h w d).ctxAt i = s.ctxAt i := by
  have hv : h.val ≠ i.val := fun e => hi (Fin.ext e.symm)
  simp [State.chained, State.ctxAt, hv]

/-- Every state is alike to itself. -/
theorem State.AlikeButNotices.refl (s : State) : s.AlikeButNotices s := ⟨rfl, rfl⟩

/-- A counter that rises stays within its limit (R165). -/
theorem bump_le (n : Nat) : bump n ≤ Config.countLimit := Nat.min_le_right _ _

end Sys2Proof.Machine
end

