-- ==== Sys2Proof/Laws/Frames.lean ====
section
/-! SUPPORT. What the shared operations leave alone: the queue of commands, the time base, the pins, the Step Store, the
configurations, the interlock state, the minimum strength, the round-robin pointer and the budget. One lemma for each
operation, which says that this base of the state is kept. -/

namespace Sys2Proof.Machine

/-- The part of the state that no operation on heads, classes, carriers, records, grants or notices writes. -/
structure Base where
  pending : List Instr
  now : Nat
  resetHeld : Bool
  pins : Pins
  store : StepStore
  interlock : Bool
  config : PerHead HeadConfig
  minStrength : Nat
  pointer : Head
  budget : Nat
  deriving DecidableEq, Repr

/-- The base of a state. -/
def State.base (s : State) : Base :=
  { pending := s.pending, now := s.now, resetHeld := s.resetHeld, pins := s.pins, store := s.store,
    interlock := s.interlock, config := s.config, minStrength := s.minStrength, pointer := s.pointer, budget := s.budget }

/-- States of one base agree on each of its fields. -/
theorem State.base_eq_iff (s t : State) :
    t.base = s.base ↔ t.pending = s.pending ∧ t.now = s.now ∧ t.resetHeld = s.resetHeld ∧ t.pins = s.pins ∧
      t.store = s.store ∧ t.interlock = s.interlock ∧ t.config = s.config ∧ t.minStrength = s.minStrength ∧
      t.pointer = s.pointer ∧ t.budget = s.budget := by
  simp [State.base]

variable (s : State)

/-! ### Updates -/

@[simp] theorem State.modCtx_base (h : Head) (f : HeadCtx → HeadCtx) : (s.modCtx h f).base = s.base := rfl
@[simp] theorem State.mapCtx_base (f : Head → HeadCtx → HeadCtx) : (s.mapCtx f).base = s.base := rfl
@[simp] theorem State.modIntake_base (h : Head) (f : Intake → Intake) : (s.modIntake h f).base = s.base := rfl
@[simp] theorem State.modRow_base (h : Head) (f : Row → Row) : (s.modRow h f).base = s.base := rfl
@[simp] theorem State.modCache_base (f : ClassCache → ClassCache) : (s.modCache f).base = s.base := rfl
@[simp] theorem State.modEntry_base (e : EntryIx) (f : Entry → Entry) : (s.modEntry e f).base = s.base := rfl
@[simp] theorem State.modRing_base (f : RingPort → RingPort) : (s.modRing f).base = s.base := rfl
@[simp] theorem State.modNotices_base (f : Notices → Notices) : (s.modNotices f).base = s.base := rfl
@[simp] theorem State.modCarrier_base (id : CarrierId) (f : CarrierEntry → CarrierEntry) :
    (s.modCarrier id f).base = s.base := rfl

/-! ### Ring Port and Notice Unit -/

@[simp] theorem State.raise_base (get : Counters → Nat) (set : Counters → Nat → Counters) :
    (s.raise get set).base = s.base := by
  unfold State.raise; dsimp only; split <;> rfl

@[simp] theorem State.raiseCrc_base : s.raiseCrc.base = s.base := s.raise_base _ _
@[simp] theorem State.raiseOverflow_base : s.raiseOverflow.base = s.base := s.raise_base _ _
@[simp] theorem State.raiseDropped_base : s.raiseDropped.base = s.base := s.raise_base _ _
@[simp] theorem State.raiseForeign_base : s.raiseForeign.base = s.base := s.raise_base _ _
@[simp] theorem State.placeGeneral_base (f : Frame) : (s.placeGeneral f).base = s.base := rfl
@[simp] theorem State.placeReply_base (f : Frame) : (s.placeReply f).base = s.base := rfl
@[simp] theorem State.reportRecords_base : s.reportRecords.base = s.base := rfl
@[simp] theorem State.reportFault_base : s.reportFault.base = s.base := rfl
@[simp] theorem State.reportClaim_base : s.reportClaim.base = s.base := rfl

@[simp] theorem State.offerAttention_base (c : Causes) : (s.offerAttention c).base = s.base := by
  unfold State.offerAttention; split <;> rfl

@[simp] theorem State.report_base : s.report.base = s.base := by
  unfold State.report; dsimp only; split <;> simp

@[simp] theorem State.announcePending_base : s.announcePending.base = s.base := by
  unfold State.announcePending; split <;> simp

/-! ### Grant Arbiter -/

@[simp] theorem State.placeDrive_base (f : DriveFrame) : (s.placeDrive f).base = s.base := rfl
@[simp] theorem State.releaseClaims_base (h : Head) : (s.releaseClaims h).base = s.base := rfl
@[simp] theorem State.stop_base (h : Head) (c : Bool) : (s.stop h c).base = s.base := by simp [State.stop]
@[simp] theorem State.writeTier_base (h : Head) (t : Tier) : (s.writeTier h t).base = s.base := rfl

@[simp] theorem claimWalk_base (h : Head) (js : List Head) (n : Nat) : (claimWalk h js n s).base = s.base := by
  induction js generalizing n s with
  | nil => rfl
  | cons j js ih => unfold claimWalk; split <;> simp [ih]

@[simp] theorem State.claim_base (h : Head) (n : Nat) : (s.claim h n).base = s.base := by
  unfold State.claim; split
  · split <;> simp
  · rfl

@[simp] theorem State.grantService_base (h : Head) (d : Nat) (a : Option Kind) (f : Option Nat) :
    (s.grantService h d a f).base = s.base := by
  simp [State.grantService]

@[simp] theorem placeCutFrames_base (hs : List Head) : (placeCutFrames hs s).base = s.base := by
  induction hs generalizing s with
  | nil => rfl
  | cons h hs ih => simp [placeCutFrames, ih]

/-! ### Class Cache -/

@[simp] theorem State.touch_base (e : EntryIx) : (s.touch e).base = s.base := rfl
@[simp] theorem State.oweRetry_base : s.oweRetry.base = s.base := rfl
@[simp] theorem State.invalidate_base (e : EntryIx) : (s.invalidate e).base = s.base := rfl
@[simp] theorem State.bindTo_base (h : Head) (e : EntryIx) (v : Nat) : (s.bindTo h e v).base = s.base := rfl

@[simp] theorem State.offerFetch_base (c : ClassId) : (s.offerFetch c).base = s.base := by
  unfold State.offerFetch; split <;> rfl

@[simp] theorem State.fetchInto_base (h : Head) (c : ClassId) (v : EntryIx) : (s.fetchInto h c v).base = s.base := by
  simp [State.fetchInto]

theorem State.bindMiss_base {h : Head} {c : ClassId} {b : Bound} (hb : s.bindMiss h c = some b) :
    b.state.base = s.base := by
  simp only [State.bindMiss, Option.map_eq_some_iff] at hb
  obtain ⟨v, -, rfl⟩ := hb
  simp

theorem State.tryBind_base {h : Head} {c : ClassId} {r : Bool} {b : Bound} (hb : s.tryBind h c r = some b) :
    b.state.base = s.base := by
  unfold State.tryBind at hb
  split at hb
  · exact s.bindMiss_base hb
  · split at hb
    · split at hb
      · exact (State.bindMiss_base _ hb).trans (by simp)
      · cases hb; simp
    · cases hb; simp
    · exact s.bindMiss_base hb

@[simp] theorem State.bindRequest_base (h : Head) (c : ClassId) (r : Bool) :
    (s.bindRequest h c r).state.base = s.base := by
  unfold State.bindRequest
  split
  · next b hb => exact s.tryBind_base hb
  · rfl

@[simp] theorem State.setBound_base (h : Head) (b : Bool) : (s.setBound h b).base = s.base := rfl

@[simp] theorem retryWaiters_base (ws : List Waiter) : (retryWaiters ws s).base = s.base := by
  induction ws generalizing s with
  | nil => rfl
  | cons w ws ih =>
    unfold retryWaiters
    split
    · next b hb => rw [ih, State.setBound_base, s.tryBind_base hb]
    · rfl

@[simp] theorem State.runRetry_base : s.runRetry.base = s.base := by
  unfold State.runRetry; split <;> simp

@[simp] theorem State.unbind_base (h : Head) : (s.unbind h).base = s.base := by
  unfold State.unbind; split
  · rfl
  · dsimp only; split <;> rfl

@[simp] theorem State.leaveWait_base (h : Head) : (s.leaveWait h).base = s.base := rfl
@[simp] theorem State.rebindTo_base (t : EntryIx) (g : ClassId) (h : Head) : (s.rebindTo t g h).base = s.base := rfl

@[simp] theorem moveHeads_base (t : EntryIx) (g : ClassId) (hs : List Head) : (moveHeads t g hs s).base = s.base := by
  induction hs generalizing s with
  | nil => rfl
  | cons h hs ih => simp [moveHeads, ih]

@[simp] theorem State.fill_base (t : EntryIx) (d : ClassDesc) : (s.fill t d).base = s.base := by simp [State.fill]

@[simp] theorem State.settleOverlap_base (t : EntryIx) (d : ClassDesc) (e : EntryIx) :
    (State.settleOverlap t d e s).base = s.base := by
  unfold State.settleOverlap; dsimp only
  split
  · split
    · simp
    · split <;> simp
    · rfl
  · rfl

@[simp] theorem settleOverlaps_base (t : EntryIx) (d : ClassDesc) (es : List EntryIx) :
    (settleOverlaps t d es s).base = s.base := by
  induction es generalizing s with
  | nil => rfl
  | cons e es ih => simp [settleOverlaps, ih]

@[simp] theorem meetBound_base (hs : List Head) : (meetBound hs s).base = s.base := by
  induction hs generalizing s with
  | nil => rfl
  | cons h hs ih => simp [meetBound, ih]

@[simp] theorem State.applyLoad_base (t : EntryIx) (d : ClassDesc) : (s.applyLoad t d).base = s.base := by
  simp [State.applyLoad]

/-! ### Records and carriers -/

@[simp] theorem State.enterRecord_base (r : Record) : (s.enterRecord r).base = s.base := rfl

@[simp] theorem State.offerJoint_base (h : Head) (r : JointRecord) : (s.offerJoint h r).base = s.base := by
  unfold State.offerJoint; split <;> rfl

@[simp] theorem State.reportEnd_base (id : CarrierId) (k : OutcomeClass) : (s.reportEnd id k).base = s.base := rfl
@[simp] theorem State.reportDiscard_base (id : CarrierId) : (s.reportDiscard id).base = s.base := rfl

@[simp] theorem closeEntries_base (cs : List CarrierEntry) : (closeEntries cs s).base = s.base := by
  induction cs generalizing s with
  | nil => rfl
  | cons c cs ih =>
    rw [closeEntries, ih]
    split
    · split <;> rfl
    · rfl

@[simp] theorem State.closeCarriers_base : s.closeCarriers.base = s.base := by simp [State.closeCarriers]
@[simp] theorem State.markClosing_base (id : CarrierId) : (s.markClosing id).base = s.base := rfl

/-! ### Head Context Store -/

@[simp] theorem State.startStep_base (h : Head) (a : Nat) (w : StepWord) : (s.startStep h a w).base = s.base := rfl
@[simp] theorem State.startSegment_base (h : Head) (a : Nat) (w : StepWord) : (s.startSegment h a w).base = s.base := rfl
@[simp] theorem State.chainNext_base (h : Head) (w : StepWord) : (s.chainNext h w).base = s.base := by simp [State.chainNext]
@[simp] theorem State.chainSegment_base (h : Head) (w : StepWord) : (s.chainSegment h w).base = s.base := rfl

@[simp] theorem endEvent_base (n : Nat) (h : Head) : (endEvent n h s).state.base = s.base := by
  induction n generalizing s with
  | zero => rfl
  | succ n ih =>
    unfold endEvent
    split
    · rfl
    · split <;> simp [ih]
    · split <;> simp [ih]

@[simp] theorem State.takeEndEvent_base (h : Head) : (s.takeEndEvent h).state.base = s.base := by
  simp [State.takeEndEvent]

@[simp] theorem State.startCycle_base (h : Head) (d : ClassDesc) : (s.startCycle h d).state.base = s.base := by
  unfold State.startCycle; dsimp only
  split
  · split
    · rfl
    · split <;> simp
  · rfl

@[simp] theorem State.promote_base (h : Head) : (s.promote h).base = s.base := by
  unfold State.promote; split <;> simp

@[simp] theorem State.nextWork_base (h : Head) : (s.nextWork h).base = s.base := by
  unfold State.nextWork; split <;> simp

@[simp] theorem State.enterFaulted_base (h : Head) (c : FaultCause) : (s.enterFaulted h c).base = s.base := rfl

@[simp] theorem State.settleHead_base (h : Head) (o : CycleOutcome) (e : Bool) :
    (s.settleHead h o e).base = s.base := by
  unfold State.settleHead; split
  · simp
  · dsimp only; split <;> simp

@[simp] theorem State.terminate_base (h : Head) (e : Ending) : (s.terminate h e).base = s.base := by
  simp [State.terminate]

@[simp] theorem Progress.finish_base (p : Progress) (h : Head) : (p.finish h).base = p.state.base := by
  unfold Progress.finish; split <;> simp

@[simp] theorem startLoop_base (n : Nat) : (startLoop n s).base = s.base := by
  induction n generalizing s with
  | zero => rfl
  | succ n ih => unfold startLoop; split <;> simp [ih]

@[simp] theorem State.startReady_base : s.startReady.base = s.base := by simp [State.startReady]
@[simp] theorem State.conclude_base : s.conclude.base = s.base := by simp [State.conclude]

@[simp] theorem Progress.conclude_base (p : Progress) (h : Head) : (p.conclude h).base = p.state.base := by
  unfold Progress.conclude; split <;> simp

@[simp] theorem State.discardCurrent_base (h : Head) : (s.discardCurrent h).base = s.base := by
  unfold State.discardCurrent; dsimp only; split <;> simp

@[simp] theorem State.discardWaiting_base (h : Head) : (s.discardWaiting h).base = s.base := by
  unfold State.discardWaiting; split <;> simp

@[simp] theorem State.driveFault_base (h : Head) : (s.driveFault h).base = s.base := by
  unfold State.driveFault; split <;> simp

@[simp] theorem State.classUnavailable_base (h : Head) : (s.classUnavailable h).base = s.base := by
  simp [State.classUnavailable]

@[simp] theorem State.serveHead_base (h : Head) (t : Nat) : (s.serveHead h t).base = s.base := by
  unfold State.serveHead
  split
  · split
    · rw [Progress.conclude_base]
      unfold State.serveStep
      split
      · simp
      · dsimp only; split <;> simp [State.driveHead]
    · rfl
  all_goals rfl

end Sys2Proof.Machine
end

