-- ==== Sys2Proof/Laws/Grants.lean ====
section
/-! SUPPORT. What the Grant Arbiter does: the drive slots after a placement, the rows after a release, a stop and a walk
over donors, and the bounds of a grant. -/

namespace Sys2Proof.Machine

/-! ### Drive slots (R157) -/

/-- A placement keeps the order of the waiting heads, and a head that waits for nothing joins the tail. -/
theorem placeIn_heads (fs : List DriveFrame) (f : DriveFrame) :
    (placeIn fs f).map DriveFrame.head =
      if f.head ∈ fs.map DriveFrame.head then fs.map DriveFrame.head else fs.map DriveFrame.head ++ [f.head] := by
  induction fs with
  | nil => simp [placeIn]
  | cons g gs ih =>
    by_cases hg : g.head = f.head
    · simp [placeIn, hg]
    · have hg' : ¬ f.head = g.head := fun h => hg h.symm
      simp only [placeIn, if_neg hg, List.map_cons, ih, List.mem_cons, hg', false_or]
      split <;> simp

/-- A placement keeps at most one frame for each head. -/
theorem placeIn_nodup {fs : List DriveFrame} (h : (fs.map DriveFrame.head).Nodup) (f : DriveFrame) :
    ((placeIn fs f).map DriveFrame.head).Nodup := by
  rw [placeIn_heads]
  split
  · exact h
  · rename_i hf
    rw [List.nodup_append]
    refine ⟨h, by simp, fun a ha b hb hab => ?_⟩
    obtain rfl := List.mem_singleton.mp hb
    exact hf (hab ▸ ha)

/-- The frames of the other heads are the same, in the same order. -/
theorem placeIn_others (fs : List DriveFrame) (f : DriveFrame) :
    (placeIn fs f).filter (fun g => g.head ≠ f.head) = fs.filter fun g => g.head ≠ f.head := by
  induction fs with
  | nil => simp [placeIn]
  | cons g gs ih =>
    by_cases hg : g.head = f.head
    · simp [placeIn, hg]
    · simp only [placeIn, if_neg hg, List.filter_cons, ih]

/-- The frame that waits for the head placed, with the feed length it carries on. -/
theorem placeIn_own (fs : List DriveFrame) (f : DriveFrame) :
    (placeIn fs f).find? (fun g => g.head = f.head) =
      some (match fs.find? fun g => g.head = f.head with
        | some g => { f with feedLen := carriedFeed g f }
        | none => f) := by
  induction fs with
  | nil => simp [placeIn]
  | cons g gs ih =>
    by_cases hg : g.head = f.head
    · simp [placeIn, hg]
    · rw [placeIn, if_neg hg]; simp only [List.find?_cons, hg, decide_false, ih]

/-! ### Rows (R122, R128, R132) -/

/-- The claims of a head are released: the rows it is claimant of lose their caps, and no other row changes (R128). -/
theorem State.releaseClaims_rowAt (s : State) (h j : Head) : (s.releaseClaims h).rowAt j = (s.rowAt j).released h := by
  simp [State.releaseClaims, State.reportClaim, State.modNotices, State.rowAt]

/-- A stop empties the head's row and releases its claims (R132). -/
theorem State.stop_rowAt (s : State) (h j : Head) (cancel : Bool) :
    (s.stop h cancel).rowAt j = if j = h then {} else (s.rowAt j).released h := by
  have placed (u : State) (f : DriveFrame) : (u.placeDrive f).rowAt j = u.rowAt j := rfl
  rw [State.stop, placed]
  by_cases hj : j = h
  · subst hj; simp
  · rw [State.modRow_rowAt_of_ne _ hj, State.releaseClaims_rowAt, if_neg hj]

/-- A release leaves grants, demands and tiers. -/
theorem Row.released_grant (h : Head) (r : Row) :
    (r.released h).grant = r.grant ∧ (r.released h).demand = r.demand ∧ (r.released h).tier = r.tier := by
  unfold Row.released; split <;> exact ⟨rfl, rfl, rfl⟩

/-- A claim changes no grant, no demand and no tier (R126). -/
theorem Row.claimed_grant (h : Head) (a : Nat) (r : Row) :
    (r.claimed h a).grant = r.grant ∧ (r.claimed h a).demand = r.demand ∧ (r.claimed h a).tier = r.tier :=
  ⟨rfl, rfl, rfl⟩

/-- A walk over donors changes no grant, demand or tier, and leaves every row that is not on its way (R126). -/
theorem claimWalk_rowAt (h : Head) (js : List Head) (short : Nat) (s : State) (i : Head) :
    ((claimWalk h js short s).rowAt i).grant = (s.rowAt i).grant ∧
      ((claimWalk h js short s).rowAt i).demand = (s.rowAt i).demand ∧
      ((claimWalk h js short s).rowAt i).tier = (s.rowAt i).tier ∧
      (i ∉ js → (claimWalk h js short s).rowAt i = s.rowAt i) := by
  induction js generalizing short s with
  | nil => exact ⟨rfl, rfl, rfl, fun _ => rfl⟩
  | cons j js ih =>
    simp only [claimWalk]
    split
    · exact ⟨rfl, rfl, rfl, fun _ => rfl⟩
    · obtain ⟨hg, hd, ht, hn⟩ := ih (short - min (s.rowAt j).grant short)
        (s.modRow j (Row.claimed h (min (s.rowAt j).grant short)))
      rw [hg, hd, ht]
      by_cases hij : i = j
      · subst hij; simp [Row.claimed_grant]
      · rw [State.modRow_rowAt_of_ne _ hij]
        refine ⟨rfl, rfl, rfl, fun hm => ?_⟩
        rw [hn fun h => hm (List.mem_cons_of_mem _ h), State.modRow_rowAt_of_ne _ hij]

/-! ### Grants (R123) -/

/-- A grant never exceeds the demand, the headroom or the cap (R123). -/
theorem grantOf_le (demand room : Nat) (cap : Option Cap) :
    grantOf demand room cap ≤ demand ∧ grantOf demand room cap ≤ room ∧
      ∀ c ∈ cap, grantOf demand room cap ≤ c.limit := by
  cases cap <;> simp [grantOf]

/-- Scaled grants do not rise where the budget is below the sum (R130). -/
theorem scaledGrant_le {budget sum : Nat} (h : budget ≤ sum) (grant : Nat) : scaledGrant budget sum grant ≤ grant := by
  unfold scaledGrant
  exact Nat.div_le_of_le_mul (by rw [Nat.mul_comm]; exact Nat.mul_le_mul_right _ h)

end Sys2Proof.Machine
end

