-- ==== Sys2Proof/Laws/Requests.lean ====
section
/-! SUPPORT. What the taking of a command can do: device reset, the report that ends the work, and the acceptance of an
answered frame, once each. -/

namespace Sys2Proof.Machine

variable {s : State} {src tag : Byte} {code kind : Nat}

/-! ### Device reset and the report -/

theorem takes_free (h : s.resetHeld = false) (f : State → State) : takes f s = .next (f s) := by
  simp [takes, State.live, h]

theorem takes_held (h : s.resetHeld = true) (f : State → State) : takes f s = .next s := by
  simp [takes, State.live, h]

/-- Every taken command answers a next state. -/
theorem takes_next (f : State → State) (s : State) : ∃ t, takes f s = .next t := ⟨_, rfl⟩

/-- Where nothing has been reported, the report changes nothing (R169). -/
theorem State.report_of_silent (h : s.notices.reported = {}) : s.report = s := by
  obtain ⟨⟩ := s
  rename_i notices
  obtain ⟨⟩ := notices
  simp only at h
  subst h
  simp [State.report, State.modNotices, Causes.inter, Causes.diff, Causes.union, Causes.any]

/-- The report of the RECORDS, FAULT and CLAIM conditions sets the detected flags reported to the conditions as they are
(R169, R170). -/
theorem State.report_detected (s : State) :
    s.report.notices.detected =
      { records := if s.notices.reported.records then s.recordsPresent else s.notices.detected.records,
        fault := if s.notices.reported.fault then s.faultPresent else s.notices.detected.fault,
        claim := if s.notices.reported.claim then s.claimPresent else s.notices.detected.claim,
        ring := s.notices.detected.ring || s.notices.reported.ring } := by
  have flags : s.report.notices.detected = (s.notices.detected.union (s.notices.reported.inter s.conditions)).diff
      (s.notices.reported.diff s.conditions) := by
    simp only [State.report, State.offerAttention]
    repeat' split
    all_goals rfl
  rw [flags]
  simp only [Causes.union, Causes.inter, Causes.diff, State.conditions]
  cases s.notices.reported.records <;> cases s.notices.reported.fault <;> cases s.notices.reported.claim <;>
    cases s.recordsPresent <;> cases s.faultPresent <;> cases s.claimPresent <;> simp

/-- After the clear of READ_STATUS no RING event is left to report, whatever had risen in the operation before (R175). -/
theorem State.clearCounters_report {b : Bool} (h : s.notices.reported = { ring := b }) :
    s.clearCounters.report = s.clearCounters := by
  apply State.report_of_silent
  simp [State.clearCounters, State.modNotices, State.modRing, h]

/-- No cause stays reported after the report. -/
theorem State.report_reported (s : State) : s.report.notices.reported = {} := by
  simp only [State.report, State.offerAttention]
  repeat' split
  all_goals rfl

/-- A report touches the notices and the general queue alone. -/
theorem State.report_eq (s : State) :
    s.report = { s with notices := s.report.notices, ring := { s.ring with general := s.report.ring.general } } := by
  simp only [State.report, State.offerAttention]
  repeat' split
  all_goals rfl

/-! ### Consumed and answered frames -/

theorem consumed_sending (h : sendingNode src = true) (work : State → State) : consumed src work s = work s := by
  simp [consumed, h]

theorem consumed_foreign (h : sendingNode src = false) (work : State → State) :
    consumed src work s = s.raiseForeign.report := by
  simp [consumed, h]

/-- The state a block takes an answered frame in: one place of the general queue is reserved for the reply (R160). -/
def State.reserving (s : State) : State := s.modRing fun r => { r with reserved := true }

/-- An answered frame that is taken: the work with a place reserved, the report, the REPLY (R160). -/
theorem answered_taken (h : s.Takes src) (work : State → Answer) :
    answered kind code src tag work s =
      (work s.reserving).state.report.placeReply
        (replyFrame s.ring.own kind code src tag (work s.reserving).status (work s.reserving).items) := by
  obtain ⟨⟨-, hr, -, -⟩, hs, hp⟩ := h
  have place : s.ring.hasPlace = true := by simp [RingPort.hasPlace, hr, hp]
  simp [answered, consumed_sending hs, place, State.reserving]

/-- An answered frame that finds the general queue full is dropped and counted (R160). -/
theorem answered_dropped (hs : sendingNode src = true) (hp : Config.generalCapacity ≤ s.ring.general.length)
    (work : State → Answer) : answered kind code src tag work s = s.raiseDropped.report := by
  have place : s.ring.hasPlace = false := by
    simp only [RingPort.hasPlace, decide_eq_false_iff_not]; omega
  simp [answered, consumed_sending hs, place]

/-- A taken frame whose block leaves the state as it is: the REPLY is all that changes (R161). -/
theorem answered_still (h : s.Takes src) (work : State → Answer) (hw : (work s.reserving).state = s.reserving) :
    answered kind code src tag work s =
      s.replied src tag (be8 kind ++ be8 code ++ be8 (statusCode (work s.reserving).status) ++
        (work s.reserving).items) := by
  rw [answered_taken h, hw, State.report_of_silent (by exact h.1.2.2.1)]
  obtain ⟨⟨-, hr, -, -⟩, -, -⟩ := h
  obtain ⟨⟩ := s
  rename_i ring _
  obtain ⟨⟩ := ring
  simp only at hr
  subst hr
  rfl

/-- A REQUEST that its block refuses, or that changes nothing, is answered and changes nothing else (R161). -/
theorem request_still (h : s.Takes src) (body : List Byte) (work : List Byte → State → Answer) {st : Status}
    {items : List Byte}
    (hw : work (BitVec.ofNat 8 code :: body) s.reserving = { state := s.reserving, status := st, items }) :
    request code src tag body work s =
      .next (s.replied src tag (be8 0x01 ++ be8 code ++ be8 (statusCode st) ++ items)) := by
  rw [request, takes_free h.1.1, answered_still h _ (by rw [hw]), hw]

end Sys2Proof.Machine
end

