-- ==== Sys2Proof/Laws/Store.lean ====
section
/-! SUPPORT. The Step Store as a memory (R1): a read after a write, every other address, and the canonical form. -/

namespace Sys2Proof.Machine

/-- An address below every listed one reads the zero word. -/
theorem StepStore.read_of_below (m : StepStore) (a : Nat) (h : ∀ p ∈ m, a < p.1) : StepStore.read m a = {} := by
  induction m with
  | nil => rfl
  | cons p m ih =>
    have hp := h p (by simp)
    simp only [StepStore.read]
    rw [if_neg (by omega)]
    exact ih fun q hq => h q (by simp [hq])

/-- The canonical form, one entry at a time. -/
theorem StepStore.wf_cons (a : Nat) (w : StepWord) (m : StepStore) :
    StepStore.wf ((a, w) :: m) = true ↔ w ≠ {} ∧ (∀ p ∈ m, a < p.1) ∧ StepStore.wf m = true := by
  simp [StepStore.wf, and_assoc]

/-- What a write lists was listed before, or is the word written. -/
theorem StepStore.mem_write {m : StepStore} {a : Nat} {w : StepWord} {p : Nat × StepWord}
    (h : p ∈ StepStore.write m a w) : p ∈ m ∨ p = (a, w) := by
  induction m with
  | nil =>
    simp only [StepStore.write] at h
    split at h <;> simp_all
  | cons q m ih =>
    obtain ⟨b, v⟩ := q
    simp only [StepStore.write] at h
    split at h
    · split at h <;> simp_all
      tauto
    · split at h
      · split at h <;> simp_all
        tauto
      · rcases List.mem_cons.1 h with h | h
        · simp [h]
        · rcases ih h with h | h <;> simp [h]

/-- A write keeps the canonical form. -/
theorem StepStore.write_wf {m : StepStore} (a : Nat) (w : StepWord) (h : StepStore.wf m = true) :
    StepStore.wf (StepStore.write m a w) = true := by
  induction m with
  | nil =>
    simp only [StepStore.write]
    split <;> simp_all [StepStore.wf]
  | cons q m ih =>
    obtain ⟨b, v⟩ := q
    obtain ⟨hv, hb, hm⟩ := (StepStore.wf_cons b v m).1 h
    simp only [StepStore.write]
    split
    · next hab =>
      split
      · exact h
      · next hw =>
        refine (StepStore.wf_cons _ _ _).2 ⟨hw, ?_, h⟩
        intro p hp
        rcases List.mem_cons.1 hp with rfl | hp
        · exact hab
        · exact hab.trans (hb p hp)
    · split
      · next hab =>
        split
        · exact hm
        · next hw => exact (StepStore.wf_cons _ _ _).2 ⟨hw, fun p hp => hab ▸ hb p hp, hm⟩
      · next h1 h2 =>
        refine (StepStore.wf_cons _ _ _).2 ⟨hv, ?_, ih hm⟩
        intro p hp
        rcases StepStore.mem_write hp with hp | rfl
        · exact hb p hp
        · show b < a
          omega

/-- A read after a write: the word written at its address, every other address as before. -/
theorem StepStore.read_write {m : StepStore} (h : StepStore.wf m = true) (a b : Nat) (w : StepWord) :
    StepStore.read (StepStore.write m a w) b = if b = a then w else StepStore.read m b := by
  induction m with
  | nil =>
    simp only [StepStore.write]
    by_cases hw : w = {} <;> simp [hw, StepStore.read]
  | cons q m ih =>
    obtain ⟨c, v⟩ := q
    obtain ⟨hv, hc, hm⟩ := (StepStore.wf_cons c v m).1 h
    have below : ∀ x, x ≤ c → StepStore.read m x = {} := fun x hx =>
      StepStore.read_of_below m x fun p hp => lt_of_le_of_lt hx (hc p hp)
    simp only [StepStore.write]
    rcases lt_trichotomy a c with hac | rfl | hac
    · rw [if_pos hac]
      by_cases hw : w = {}
      · rw [if_pos hw]
        by_cases hb : b = a
        · subst hb
          simp [StepStore.read, below b hac.le, hw]
          omega
        · simp [hb]
      · rw [if_neg hw]
        simp [StepStore.read]
    · rw [if_neg (lt_irrefl a), if_pos rfl]
      by_cases hw : w = {}
      · rw [if_pos hw]
        by_cases hb : b = a
        · subst hb
          simp [below b le_rfl, hw]
        · simp [StepStore.read, hb]
      · rw [if_neg hw]
        by_cases hb : b = a <;> simp [StepStore.read, hb]
    · rw [if_neg (by omega), if_neg (by omega)]
      simp only [StepStore.read, ih hm]
      by_cases hb : b = c
      · subst hb
        simp
        omega
      · simp [hb]

/-- A run of writes keeps the canonical form. -/
theorem StepStore.writeMany_wf (ws : List StepWord) {m : StepStore} (a : Nat) (h : StepStore.wf m = true) :
    StepStore.wf (StepStore.writeMany m a ws) = true := by
  induction ws generalizing m a with
  | nil => exact h
  | cons w ws ih => exact ih (a + 1) (StepStore.write_wf a w h)

/-- A read after a run of writes: the words of the run at its addresses, every other address as before. -/
theorem StepStore.read_writeMany (ws : List StepWord) {m : StepStore} (h : StepStore.wf m = true) (a b : Nat) :
    StepStore.read (StepStore.writeMany m a ws) b =
      if a ≤ b ∧ b < a + ws.length then ws.getD (b - a) {} else StepStore.read m b := by
  induction ws generalizing m a with
  | nil =>
    have : ¬(a ≤ b ∧ b < a) := by omega
    simp [StepStore.writeMany, this]
  | cons w ws ih =>
    rw [StepStore.writeMany, ih (StepStore.write_wf a w h) (a + 1), StepStore.read_write h]
    rcases lt_trichotomy b a with hb | rfl | hb
    · have h1 : ¬(a + 1 ≤ b ∧ b < a + 1 + ws.length) := by omega
      have h2 : ¬(a ≤ b ∧ b < a + (w :: ws).length) := by omega
      simp only [h1, h2, if_false]
      rw [if_neg (by omega)]
    · simp
    · by_cases hlt : b < a + 1 + ws.length
      · have h1 : a + 1 ≤ b ∧ b < a + 1 + ws.length := ⟨by omega, hlt⟩
        have h2 : a ≤ b ∧ b < a + (w :: ws).length := ⟨by omega, by simp; omega⟩
        rw [if_pos h1, if_pos h2]
        have : b - a = (b - (a + 1)) + 1 := by omega
        rw [this, List.getD_cons_succ]
      · have h1 : ¬(a + 1 ≤ b ∧ b < a + 1 + ws.length) := by omega
        have h2 : ¬(a ≤ b ∧ b < a + (w :: ws).length) := by simp; omega
        rw [if_neg h1, if_neg h2, if_neg (by omega)]

/-- Reading `n` consecutive words. -/
theorem StepStore.readMany_eq (m : StepStore) (a n : Nat) :
    StepStore.readMany m a n = (List.range n).map fun i => StepStore.read m (a + i) := by
  induction n generalizing a with
  | zero => rfl
  | succ n ih =>
    rw [StepStore.readMany, ih, List.range_succ_eq_map, List.map_cons, List.map_map]
    congr 1
    refine List.map_congr_left fun i _ => ?_
    simp only [Function.comp_apply]
    congr 1
    omega

end Sys2Proof.Machine
end

