-- ==== Sys2Proof/Tests/Slice0.lean ====
section
/-! SUPPORT. Small tests of one step each, with expected results from the manual's worked examples and tables, and for each
statement with hypotheses a concrete state that meets them. -/

set_option Elab.async false

namespace Sys2Proof.Tests

open Sys2Proof Sys2Proof.Machine

/-! ### States -/

/-- The configuration of an enabled head: sensor node 20 + h, drive node 40 + h, rating 2000, staleness limit 100 ms. -/
def config (h : Nat) : HeadConfig :=
  { enable := true, sensor := BitVec.ofNat 8 (20 + h), drive := BitVec.ofNat 8 (40 + h), rating := 2000, staleness := 100 }

/-- A station with heads 0 to 2 enabled, the interlock closed and a budget of 4000. -/
def station : State :=
  { State.reset with
    interlock := true, pins := { ilk := true, strap := 0 }, budget := 4000
    config := Vector.ofFn fun h => if h.val < 3 then config h.val else {}
    ctx := Vector.ofFn fun h => if h.val < 3 then { state := .idle } else {} }

/-- A class of id 0010h on page 1. -/
def cls : ClassDesc :=
  { classId := 0x10, span := 0, retention := .medium, start := 16, firstPage := 1, pageCount := 1, liquidus := 200,
    maxTemp := 600, minWet := 5, kp := 640, ki := 40, settle := 3, trims := [0] }

/-- An assignment of carrier `id` for that class. -/
def asg (id : CarrierId) : Assignment := { carrier := id, joint := 1, classId := 0x10, refresh := false }

/-- A step word of a kind code. -/
def word (code : Fin 16) : StepWord :=
  { code, tier := 1, target := 200, window := 50, param := 100, limit := 0, ceiling := 1000, base := 50 }

/-- Carrier 7 with `n` live assignments. -/
def carrier7 (n : Nat) (released : Bool) (purge : Purge) : CarrierEntry :=
  { newCarrier 7 n with released, purge }

/-- The station with the class resident in entry 0 with users, and a start word at address 16. -/
def loaded (users : Nat) (s : State) : State :=
  { (s.modEntry 0 fun x => { x with body := .resident 0x10 cls, users }) with store := [(16, word 2)] }

/-- Head 0 HEATING on carrier 7 with step word `w`, with every timer due and a sample pending. -/
def heating (w : StepWord) (p : Prefetch) (f : HeadCtx → HeadCtx) : State :=
  { (((loaded 1 station).modCtx 0 fun _ => f
      { state := .heating, current := some { asg := asg 7, promoted := true },
        binding := some { entry := 0, variant := 0 }, stepAddr := 16, step := some w, prefetch := p,
        stepTimer := some 0, tStart := some 180, lastTemp := some 190, peak := some 190, wet := 7, iAcc := 256,
        sampleMark := some 0, energy := 500 }).modRow 0
      fun _ => { demand := 100, grant := 90, tier := some w.tier }).modIntake 0
      fun _ => { slot := some { seq := 5, temp := 190 }, lastSeq := some 5, staleTimer := some 0, lastFeed := some 1 } with
    carriers := [carrier7 1 true .ok], now := 50 }

/-- Head 0 in ARMING on carrier 7 with every requirement met but those the station denies it. -/
def arming (released : Bool) (purge : Purge) (interlock : Bool) (settle : Option Nat) (next : Option Assignment) : State :=
  { (loaded 1 station).modCtx 0 fun _ =>
      { state := .arming, current := some { asg := asg 7, promoted := true }, next,
        binding := some { entry := 0, variant := 0 }, settle,
        reqs := some { bound := true, purge := decide (purge = .ok), released, interlock, settle := settle.isNone } } with
    carriers := carrier7 1 released purge :: (next.map fun a => newCarrier a.carrier 1).toList, interlock,
    pins := { ilk := interlock, strap := 0 } }

/-- Head 0 in ARMING on carrier 7, bound to entry 0, whose fetch has `n` ms left. -/
def fetching (n : Nat) : State :=
  { (station.modEntry 0 fun x => { x with body := .fetching 0x10 n, users := 1 }).modCtx 0 fun _ =>
      { state := .arming, current := some { asg := asg 7, promoted := true }, binding := some { entry := 0, variant := 0 },
        reqs := some { bound := false, purge := true, released := true, interlock := true, settle := true } } with
    carriers := [carrier7 1 true .ok], store := [(16, word 2)] }

/-- A record of carrier 7 from head 0. -/
def record : JointRecord := (heating (word 2) .empty id).recordAt 0 .exitLow (asg 7)

/-- Head 0 HELD with its record beside a full queue. -/
def held : State :=
  { station.modCtx 0 fun _ => { state := .held, heldRecord := some record } with
    queue := List.replicate 32 (.carrier (newCarrier 9 1).record)
    carriers := [{ carrier7 0 true .ok with assigned := 1, reject := 1 }]
    notices := { detected := { records := true } } }

/-- Head 0 FAULTED with what it holds. -/
def faulted (current : Option Current) (s : State) : State :=
  { s.modCtx 0 fun c => { c with state := .faulted, cause := some .driveFault, current } with
    notices := { s.notices with detected := { s.notices.detected with fault := true } } }

/-- Every entry of the cache FETCHING an id of its own, so that no victim is left. -/
def fullCache : State :=
  { station with cache := { station.cache with entries := Vector.ofFn fun e =>
      { body := .fetching (BitVec.ofNat 16 (256 + e.val)) 50, users := 0, recency := e.val } } }

/-- A command answers a next state of which a test holds. -/
def after (r : Result) (p : State → Bool) : Bool :=
  match r with
  | .next t => p t
  | _ => false

/-- Head 0 in ARMING waits for a class beside the full cache, whose entry 3 has run out of time. -/
def waiting : State :=
  let s := (fullCache.modEntry 3 fun x => { x with body := .fetching 0x103 0 }).modCtx 0 fun _ =>
    { state := .arming, current := some { asg := asg 7, promoted := true },
      reqs := some { bound := false, purge := true, released := true, interlock := true, settle := true } }
  { s with carriers := [carrier7 1 true .ok]
           cache := { s.cache with wait := [{ head := 0, classId := 0x10, refresh := false }] } }

/-- Heads 0 and 1 HEATING on carrier 7, head 1 with no demand yet. -/
def twoHeating : State :=
  let s := heating (word 2) .empty id
  { (((s.modCtx 1 fun _ => s.ctxAt 0).modRow 1 fun _ => { tier := some 1 }).modEntry 0 fun x => { x with users := 2 }) with
    carriers := [carrier7 2 true .ok] }

/-- Head 0 HEATING on carrier 7 with an assignment of carrier 8 next. -/
def heatingTwice (w : StepWord) : State :=
  { heating w .empty fun c => { c with next := some (asg 8) } with carriers := [carrier7 1 true .ok, newCarrier 8 1] }

/-- The states above hold every law. -/
theorem lawful_states :
    station.checkLaws = true ∧ (loaded 0 station).checkLaws = true ∧ (heating (word 2) .empty id).checkLaws = true ∧
      (arming false .ok true none none).checkLaws = true ∧ (fetching 0).checkLaws = true ∧ held.checkLaws = true ∧
      (faulted none station).checkLaws = true ∧ fullCache.checkLaws = true ∧ waiting.checkLaws = true ∧
      twoHeating.checkLaws = true ∧ (heatingTwice (word 2)).checkLaws = true := by
  decide +kernel

/-! ### Witnesses: for each statement with hypotheses, a state and operands that meet them -/

/-- Head 0 running a SOAK with its timers due. -/
def soaking : State := heating (word 2) .empty id

theorem soaking_lawful : soaking.Lawful ∧ soaking.Settled ∧ soaking.Taking :=
  ⟨State.lawful_of_check (by decide +kernel), by decide +kernel, by decide +kernel⟩

/-- Counters that stand at 0 are within their limit. -/
theorem counters_bounded (s : State) (h : s.ring.counters = {}) : s.CountersBounded := by
  unfold State.CountersBounded
  rw [h]
  decide

theorem witness_StepTakesFront : ({ station with pending := [.service] } : State).pending = .service :: [] := rfl

theorem witness_EmptyQueuePassesTime :
    soaking.pending = [] ∧ (soaking.ctxAt 0).state = .heating ∧ (soaking.ctxAt 1).state ≠ .heating ∧
      (fetching 1).pending = [] ∧ ((fetching 1).entryAt 0).body = .fetching 0x10 1 := by decide +kernel

theorem witness_CommandsKeepQueueAndTime :
    exec .ringOutSend station = .next (station.modRing RingPort.send) ∧ ∀ strap ilk, Instr.ringOutSend ≠ .deviceResetEnd strap ilk :=
  ⟨rfl, fun _ _ => Instr.noConfusion⟩

theorem witness_DeviceResetClears :
    soaking.deviceReset.resetHeld = true ∧ Instr.interlockClosing.wellFormed = true ∧
      Instr.interlockClosing ≠ .deviceReset ∧ ∀ strap ilk, Instr.interlockClosing ≠ .deviceResetEnd strap ilk :=
  ⟨rfl, rfl, Instr.noConfusion, fun _ _ => Instr.noConfusion⟩

theorem witness_ResetStationEmpties :
    let frames := [station.stopFrame 1 false, { station.stopFrame 0 false with source := .control, grant := 90 }]
    let s := soaking.modRing fun r => { r with drive := frames }
    s.Takes 1 ∧ s.Takes 254 ∧ (s.ctxAt 0).state = .heating ∧ (s.OneDriveEach ∧ s.RestingFramesStop) ∧
      ([0] : List Byte) ≠ [] :=
  have lawful := State.lawful_of_check (s := soaking.modRing fun r =>
    { r with drive := [station.stopFrame 1 false, { station.stopFrame 0 false with source := .control, grant := 90 }] })
    (by decide +kernel)
  ⟨by decide +kernel, by decide +kernel, by decide +kernel, ⟨lawful.drives, lawful.restingFrames⟩, by decide⟩

theorem witness_LawfulKept : soaking.Lawful ∧ step soaking = .next soaking.tick := ⟨soaking_lawful.1, rfl⟩

theorem witness_SettledKept : soaking.Lawful ∧ soaking.Settled ∧ step soaking = .next soaking.tick :=
  ⟨soaking_lawful.1, soaking_lawful.2.1, rfl⟩

theorem witness_PowerLawsKept :
    (soaking.PowerWithinBudget ∧ soaking.GrantsWithinDemands) ∧ step soaking = .next soaking.tick :=
  ⟨⟨soaking_lawful.1.power, soaking_lawful.1.demands⟩, rfl⟩

theorem witness_HeatingLawsKept :
    soaking.HeatingRuns ∧ step soaking = .next soaking.tick ∧ soaking.RestingRowsEmpty ∧ soaking.IntegratorsBounded :=
  ⟨soaking_lawful.1.running, rfl, soaking_lawful.1.resting, soaking_lawful.1.integrators⟩

theorem witness_CacheLawsKept :
    step soaking = .next soaking.tick ∧ soaking.RecencyPermutation ∧ soaking.OneMatch :=
  ⟨rfl, soaking_lawful.1.recency, soaking_lawful.1.oneMatch⟩

theorem witness_BuffersBounded :
    step soaking = .next soaking.tick ∧ soaking.OneDriveEach ∧ soaking.QueueBounded ∧ soaking.RingBounded ∧
      soaking.CountersBounded :=
  ⟨rfl, soaking_lawful.1.drives, soaking_lawful.1.queue, soaking_lawful.1.ring, soaking_lawful.1.counters⟩

theorem witness_StoreKept :
    soaking.StoreSound ∧ step soaking = .next soaking.tick ∧ exec .ringOutSend soaking = .next (soaking.modRing RingPort.send) :=
  ⟨soaking_lawful.1.store, rfl, rfl⟩

theorem witness_FramesReadBack :
    (List.replicate 512 (0 : Byte)).length ≤ 512 ∧ (word 15).target < 65536 ∧ (word 15).window < 65536 ∧
      (word 15).param < 65536 ∧ (word 15).limit < 65536 ∧ (word 15).ceiling < 65536 ∧ (word 15).base < 65536 := by
  decide +kernel

theorem witness_CommandsReadBack :
    (Instr.halt 254 9 [0, 1]).wellFormed = true ∧
      frameOf 1 (.halt 254 9 [0, 1]) = some { dest := 1, src := 254, kind := 1, tag := 9, payload := [0x0A, 0, 1] } := by
  decide +kernel

theorem witness_ArrivalTakesRow :
    (Instr.purgeLost 2 7).wellFormed = true ∧
      frameOf soaking.ring.own (.purgeLost 2 7) = some { dest := 1, src := 2, kind := 0x13, tag := 0, payload := [0, 0, 0, 7, 2] } ∧
      (2 : Byte) ≠ soaking.ring.own := by decide +kernel

/-- A frame from node 2 to a node. -/
def frameTo (dest kind : Byte) (payload : List Byte) : Frame := { dest, src := 2, kind, tag := 0, payload }

/-- The station with frames in its forward buffer. -/
def forwarding (n : Nat) : State := station.modRing fun r => { r with forward := List.replicate n [] }

theorem witness_ArrivalElsewhere :
    ((forwarding 3).CountersBounded ∧ (forwarding 4).CountersBounded) ∧
    (forwarding 3).Taking ∧ (forwarding 4).Taking ∧ parseFrame [0, 1, 2] = none ∧
      (parseFrame { frameTo 9 1 [] with src := 1 }.bytes = some { frameTo 9 1 [] with src := 1 } ∧ (1 : Byte) = station.ring.own) ∧
      (parseFrame (frameTo 1 2 []).bytes = some (frameTo 1 2 []) ∧ commandOf (frameTo 1 2 []) = none) ∧
      (parseFrame (frameTo 9 1 []).bytes = some (frameTo 9 1 []) ∧ (9 : Byte) ≠ station.ring.own ∧ (9 : Byte) ≠ 255) ∧
      (parseFrame (frameTo 255 1 []).bytes = some (frameTo 255 1 []) ∧ takenKind 1 = true ∧
        commandOf (frameTo 255 1 []) = some (.unknownRequest 2 0 [])) ∧
      (parseFrame (frameTo 255 2 []).bytes = some (frameTo 255 2 []) ∧ takenKind 2 = false) ∧
      (parseFrame (frameTo 255 4 [1]).bytes = some (frameTo 255 4 [1]) ∧ takenKind 4 = true ∧
        (commandOf (frameTo 255 4 [1])).isSome = true) ∧
      (parseFrame (frameTo 255 0x13 [1]).bytes = some (frameTo 255 0x13 [1]) ∧ takenKind 0x13 = true ∧
        commandOf (frameTo 255 0x13 [1]) = none) ∧
      (forwarding 3).ring.forward.length < 4 ∧ (forwarding 4).ring.forward.length = 4 :=
  ⟨⟨counters_bounded _ rfl, counters_bounded _ rfl⟩, by decide +kernel⟩

/-- The station with a frame in each source of ring-out. -/
def sending (drive forward general : Bool) (last : RingSource) : State :=
  station.modRing fun r =>
    { r with
      drive := if drive then [station.stopFrame 0 false] else [], forward := if forward then [[1, 2]] else [],
      general := if general then [frameTo 9 2 []] else [], lastSent := last }

theorem witness_RingOutAlternates :
    (sending true true true .forward).resetHeld = false ∧
      (sending true true true .forward).ring.drive = [station.stopFrame 0 false] ∧
      (sending true true true .forward).ring.lastSent = .forward ∧ (sending true false true .drive).ring.forward = [] ∧
      (sending true true true .drive).ring.forward = [[1, 2]] ∧ (sending true true true .drive).ring.lastSent = .drive ∧
      (sending false true true .forward).ring.drive = [] ∧
      (sending false false true .drive).ring.general = [frameTo 9 2 []] ∧
      (sending false false false .drive).ring.general = [] := by decide +kernel

/-- The station with frames in its general queue. -/
def queueing (n : Nat) : State := station.modRing fun r => { r with general := List.replicate n (frameTo 9 2 []) }

theorem witness_RequestsAnsweredOnce :
    answeredFrom (.readStatus 254 3 [0]) = some (254, 3) ∧ (Instr.readStatus 254 3 [0]).wellFormed = true ∧
      (queueing 7).Takes 254 ∧ (queueing 0).Takes 1 := by decide +kernel

theorem witness_FramesNotTaken :
    ((queueing 8).CountersBounded ∧ station.CountersBounded) ∧
    answeredFrom (.readStatus 254 3 [0]) = some (254, 3) ∧ (Instr.readStatus 254 3 [0]).wellFormed = true ∧
      (queueing 8).Taking ∧ Config.generalCapacity ≤ (queueing 8).ring.general.length ∧
      consumedFrom (.sample 0 []) = some 0 ∧ consumedFrom (.readStatus 255 3 [0]) = some 255 ∧ station.Taking ∧
      (queueing 8).ring.counters = {} ∧ station.ring.counters = {} :=
  ⟨⟨counters_bounded _ rfl, counters_bounded _ rfl⟩, by decide +kernel⟩

theorem witness_WrongLengthsRefused : (queueing 7).Takes 254 ∧ ([1, 2, 3] : List Byte).length ≠ 4 := by decide +kernel

theorem witness_requests : (queueing 7).Takes 254 ∧ (queueing 0).Takes 1 := by decide +kernel

theorem witness_IdentifyReports : (queueing 7).Takes 254 := witness_requests.1

theorem witness_UnknownRequestsRefused :
    (queueing 7).Takes 254 ∧ ((0 : Byte).toNat = 0 ∨ 15 < (0 : Byte).toNat) ∧ ((16 : Byte).toNat = 0 ∨ 15 < (16 : Byte).toNat) := by
  decide +kernel

theorem witness_SetStationStores : (queueing 7).Takes 254 ∧ (255 : Byte) = 255 ∧ (254 : Byte) ≠ 255 := by decide +kernel

theorem witness_SetNoticesStores : (queueing 7).Takes 254 := witness_requests.1

/-- READ_STATUS of node 2 with the clear option, as a broadcast. -/
def readStatusAll : Frame := frameTo 255 1 [0x0E, 1]

theorem witness_ReadStatusReports :
    (queueing 7).Takes 254 ∧ (forwarding 4).Takes 2 ∧ parseFrame readStatusAll.bytes = some readStatusAll ∧
      commandOf readStatusAll = some (.readStatus 2 0 [1]) ∧ readStatusAll.src ≠ (forwarding 4).ring.own ∧
      readStatusAll.dest = 255 ∧ readStatusAll.dest ≠ (forwarding 4).ring.own ∧ (forwarding 4).ring.forward.length = 4 ∧
      (1 : Byte).getLsbD 0 = true := by decide +kernel

theorem witness_OnsetsAnnounced :
    (queueing 7).Taking ∧ parseFrame [0, 1, 2] = none ∧ (queueing 7).ring.counters.crc < 65535 ∧
      (queueing 7).notices.detected.ring = false := by decide +kernel

/-- A fault whose record enters: two onsets, of RECORDS and FAULT, where FAULT is enabled, and where no controller is set. -/
theorem witness_OnsetsAnnounced_others :
    let s := { soaking with notices := { enables := { fault := true } } }
    let s9 := { s with ring := { s.ring with cc := 9 } }
    s.Lawful ∧ s9.Lawful ∧ s.resetHeld = false ∧ (∀ bytes, Instr.stalenessExpiry 0 ≠ .frameArrival bytes) ∧
      after (exec (.stalenessExpiry 0) s9) (fun t => t.notices.detected = { records := true, fault := true } &&
        t.notices.pending = { records := true } && (t.ring.general.map Frame.payload) = [[3, 1]]) = true ∧
      after (exec (.stalenessExpiry 0) s) (fun t => t.notices.pending = { records := true, fault := true } &&
        t.ring.general = []) = true :=
  ⟨State.lawful_of_check (by decide +kernel), State.lawful_of_check (by decide +kernel), rfl, fun _ => Instr.noConfusion,
    by decide +kernel, by decide +kernel⟩

theorem witness_WriteStepsWrites :
    soaking.Takes 2 ∧ [word 0, word 15].length ≤ 16 ∧ 1023 < 1023 + [word 0, word 15].length - 1 ∧
      1022 + [word 0, word 15].length - 1 ≤ 1023 ∧
      (∀ w ∈ [word 0, word 15], w.target < 65536 ∧ w.window < 65536 ∧ w.param < 65536 ∧ w.limit < 65536 ∧
        w.ceiling < 65536 ∧ w.base < 65536) ∧
      ((soaking.entryAt 0).body = .resident 0x10 cls ∧ 0 < (soaking.entryAt 0).users ∧ 31 / 16 ≤ 1 ∧
        cls.firstPage ≤ 1 ∧ 1 < cls.firstPage + cls.pageCount) ∧
      (∀ e, (station.entryAt e).body = .invalid) ∧ station.store.wf = true := by decide +kernel

theorem witness_LockedPagesKept :
    exec .ringOutSend soaking = .next (soaking.modRing RingPort.send) ∧ (soaking.entryAt 0).body = .resident 0x10 cls ∧
      0 < (soaking.entryAt 0).users ∧ cls.inRange 31 = true ∧ cls.inRange 32 = false :=
  ⟨rfl, by decide +kernel, by decide +kernel, by decide +kernel, by decide +kernel⟩

theorem witness_ReadStepsReturns :
    (queueing 7).Takes 254 ∧ 1 ≤ (1 : Byte).toNat ∧ (16 : Byte).toNat ≤ 16 ∧ ¬ 1023 < 1008 + (16 : Byte).toNat - 1 ∧
      1023 < 1009 + (16 : Byte).toNat - 1 := by decide +kernel

theorem witness_ReadClassReports :
    soaking.Takes 2 ∧ (256 * (0 : Byte).toNat + (7 : Byte).toNat = (7 : EntryIx).val) ∧
      (∀ e, (station.entryAt e).body.matchesId 0x10 = false) ∧ soaking.OneMatch ∧
      (soaking.entryAt 0).body.matchesId (BitVec.ofNat 16 (256 * (0 : Byte).toNat + (16 : Byte).toNat)) = true ∧
      8 ≤ 256 * (0 : Byte).toNat + (8 : Byte).toNat ∧ 2 ≤ (2 : Byte).toNat ∧ soaking.DescriptorsClamped :=
  ⟨by decide +kernel, by decide +kernel, by decide +kernel, soaking_lawful.1.oneMatch, by decide +kernel, by decide +kernel,
    by decide +kernel, soaking_lawful.1.descriptors⟩

theorem waiting_lawful : waiting.Lawful := State.lawful_of_check (by decide +kernel)

theorem witness_FlushClassDrops :
    (waiting.Takes 2 ∧ waiting.OneMatch ∧ waiting.Settled ∧ ∀ e, (waiting.entryAt e).body.isResident = false) ∧
    (loaded 0 station).Takes 2 ∧ (loaded 0 station).OneMatch ∧ (loaded 0 station).cache.wait = [] ∧
      (loaded 0 station).Settled ∧ (1 : Byte).toNat < 2 ∧ 2 ≤ (2 : Byte).toNat :=
  ⟨⟨by decide +kernel, waiting_lawful.oneMatch, by decide +kernel, by decide +kernel⟩, by decide +kernel,
    (State.lawful_of_check lawful_states.2.1).oneMatch, rfl, by decide +kernel, by decide +kernel, by decide +kernel⟩

/-- The cache of the manual's worked victim choice (02_joint_classes_and_the_class_cache.md section 2.6). -/
def busyCache : State :=
  let resident := fun (tag : ClassId) (r : Retention) (users recency : Nat) =>
    ({ body := .resident tag { cls with classId := tag, retention := r }, users, recency } : Entry)
  { station with cache := { station.cache with entries := #v[resident 0x0300 .high 2 4,
      { body := .fetching 0x0655 40, users := 1, recency := 0 }, resident 0x0520 .medium 0 5, resident 0x0412 .low 0 2,
      resident 0x0108 .low 0 6, resident 0x0200 .low 1 1, resident 0x0880 .high 0 7, resident 0x0140 .medium 3 3] } }

theorem witness_VictimChosen :
    busyCache.RecencyPermutation ∧ (∀ e, (busyCache.entryAt e).body ≠ .invalid) ∧
      ((busyCache.entryAt 4).body = .resident 0x0108 { cls with classId := 0x0108, retention := .low } ∧
        (busyCache.entryAt 4).users = 0) ∧
      (station.entryAt 0).body = .invalid ∧ (∀ e, (fullCache.entryAt e).body.isResident = false) :=
  ⟨⟨by decide +kernel, by decide +kernel⟩, by decide +kernel, by decide +kernel, by decide +kernel, by decide +kernel⟩

theorem cls_clamped : cls.Clamped (clearLow cls.classId cls.span) := by
  unfold ClassDesc.Clamped
  decide +kernel

/-- A class of two ids that covers entry 0 of `soaking`. -/
def wide : ClassDesc := { cls with classId := 0x11, span := 1, trims := [0, 0] }

/-- A CLASSLOAD payload with span 4. -/
def spanFour : List Byte := [0, 16, 4, 0, 0, 16, 1, 1, 0, 0, 0, 0, 0, 0, 0, 0, 0, 0, 0, 0, 16] ++ List.replicate 32 0

theorem witness_ClassloadChecks :
    (soaking.Takes 2 ∧ soaking.OneMatch ∧ cls.Clamped (clearLow cls.classId cls.span) ∧ cls.start < 65536) ∧
      ((soaking.entryAt 0).body.matchesId cls.classId = true ∧ 0 < (soaking.entryAt 0).users) ∧
      (fullCache.Takes 2 ∧ (∀ e, (fullCache.entryAt e).body.matchesId cls.classId = false) ∧ fullCache.victim = none) ∧
      ((∀ e, (soaking.entryAt e).body.matchesId 0x11 = false) ∧ soaking.victim = some 1 ∧
        soaking.covered wide 1 0 = true ∧ (soaking.entryAt 0).body.isResident = true) ∧
      (spanFour.length = 21 + 2 * u8At spanFour 20 ∧ u8At spanFour 20 = 2 ^ u8At spanFour 2 ∧ 3 < u8At spanFour 2) :=
  ⟨⟨by decide +kernel, soaking_lawful.1.oneMatch, cls_clamped, by decide +kernel⟩, by decide +kernel, by decide +kernel,
    by decide +kernel, by decide +kernel⟩

theorem loaded_never_fetches (f : EntryIx) (n : Nat) : ((loaded 0 station).entryAt f).body ≠ .fetching cls.classId n := by
  have every : ∀ f : EntryIx, ((loaded 0 station).entryAt f).body.isResident = true ∨
      ((loaded 0 station).entryAt f).body.isInvalid = true := by decide +kernel
  intro h
  have := every f
  rw [h] at this
  rcases this with h | h <;> cases h

theorem witness_ClassloadFills :
    (fetching 1).Takes 2 ∧ (fetching 1).Lawful ∧ (fetching 1).Settled ∧ (fetching 1).cache.wait = [] ∧
      (fetching 1).LoadGoesTo cls.classId 0 ∧ (∀ f, (fetching 1).covered cls 0 f = false) ∧
      ((fetching 1).loaded cls 0).ReadyOn 0 cls ∧ station.LoadGoesTo cls.classId 0 ∧
      (loaded 0 station).LoadGoesTo cls.classId 0 :=
  ⟨by decide +kernel, State.lawful_of_check (by decide +kernel), by decide +kernel, rfl, .inl ⟨1, by decide +kernel⟩,
    by decide +kernel, by decide +kernel, .inr (.inr ⟨by decide +kernel, by decide +kernel⟩),
    .inr (.inl ⟨loaded_never_fetches, by decide +kernel, by decide +kernel, by decide +kernel⟩)⟩

theorem witness_FetchExpiryActs :
    (fetching 0).Taking ∧ ((fetching 0).entryAt 0).body = .fetching 0x10 0 ∧ (fetching 0).Lawful ∧ (fetching 0).Settled ∧
      (fetching 0).cache.wait = [] ∧ ((fetching 1).entryAt 0).body = .fetching 0x10 1 ∧
      (waiting.Taking ∧ waiting.Lawful ∧ waiting.Settled ∧ (waiting.entryAt 3).body = .fetching 0x103 0 ∧
        waiting.cache.wait.length = 1 ∧ ∀ h : Head, (waiting.ctxAt h).binding = none) :=
  ⟨by decide +kernel, by decide +kernel, State.lawful_of_check (by decide +kernel), by decide +kernel, rfl, by decide +kernel,
    by decide +kernel, waiting_lawful, by decide +kernel, by decide +kernel, by decide +kernel, by decide +kernel⟩

theorem witness_SetBudgetStores :
    soaking.Takes 2 ∧ soaking.grantSum ≤ min (256 * (0 : Byte).toNat + (90 : Byte).toNat) 16000 ∧
      min (256 * (0 : Byte).toNat + (89 : Byte).toNat) 16000 < soaking.grantSum := by decide +kernel

theorem witness_SetHeadStores :
    soaking.Takes 2 ∧ ([(1, 3, 255), (15, 0, 0)] : List (Byte × Byte × Byte)).length ≤ 2 ∧ 16 ≤ (16 : Byte).toNat ∧
      (soaking.ctxAt 0).state ≠ .idle ∧ (soaking.ctxAt 0).state ≠ .disabled ∧ (soaking.ctxAt 1).state = .idle ∧
      (soaking.ctxAt 15).state = .disabled ∧
      ¬ ((254 : Byte) = 255 ∨ (0 : Byte) = 255 ∨
        (∃ n ∈ ([(1, 3, 255), (15, 0, 0)] : List (Byte × Byte × Byte)), 16 ≤ n.1.toNat ∨ n.1 = 0) ∨
        ¬ (([(1, 3, 255), (15, 0, 0)] : List (Byte × Byte × Byte)).map Prod.fst).Nodup) := by decide +kernel

theorem witness_ReadHeadReports :
    soaking.Takes 2 ∧ 16 ≤ (16 : Byte).toNat ∧ (15 : Head).val = (15 : Byte).toNat ∧ (soaking.configAt 15).neighbours.length ≤ 2 := by
  decide +kernel

/-- Head 0 in ARMING with a next assignment of carrier 8, which is not released. -/
def armingTwice : State := arming false .ok true none (some (asg 8))

theorem witness_HaltOfOneHead :
    (soaking.Takes 2 ∧ soaking.Lawful ∧ soaking.Settled ∧ soaking.cache.wait = [] ∧
        soaking.Runs 0 (asg 7) (word 2) .soak cls) ∧
      (held.Takes 2 ∧ (held.ctxAt 0).heldRecord.isSome = true) ∧ (soaking.ctxAt 15).heldRecord = none ∧
      16 ≤ (254 : Byte).toNat ∧ (254 : Byte) ≠ 255 ∧
      (armingTwice.Takes 2 ∧ armingTwice.Lawful ∧ armingTwice.Settled ∧ armingTwice.cache.wait = [] ∧
        (armingTwice.ctxAt 0).state = .arming ∧ (armingTwice.ctxAt 0).current = some { asg := asg 7, promoted := true } ∧
        (armingTwice.ctxAt 0).next = some (asg 8) ∧ ∀ c ∈ armingTwice.carriers, c.id = 8 → c.released = false) :=
  ⟨⟨by decide +kernel, soaking_lawful.1, soaking_lawful.2.1, rfl, by decide +kernel⟩, by decide +kernel, by decide +kernel,
    by decide +kernel, by decide +kernel, by decide +kernel, State.lawful_of_check (by decide +kernel), by decide +kernel, rfl,
    by decide +kernel, by decide +kernel, by decide +kernel, by decide +kernel⟩

theorem witness_HaltOfAllHeads :
    soaking.Takes 2 ∧ soaking.Lawful ∧ soaking.Settled ∧ soaking.cache.wait = [] ∧ ∀ h, (soaking.ctxAt h).next = none :=
  ⟨by decide +kernel, soaking_lawful.1, soaking_lawful.2.1, rfl, by decide +kernel⟩

/-- Head 0 FAULTED with an assignment of carrier 7 waiting. -/
def faultedWaiting : State :=
  { faulted (some { asg := asg 7, promoted := false }) station with carriers := [carrier7 1 false .ok] }

theorem witness_ClearFaultReleases :
    (faultedWaiting.Takes 2 ∧ (faultedWaiting.ctxAt 0).state = .faulted ∧ faultedWaiting.Settled ∧ faultedWaiting.Lawful ∧
        faultedWaiting.cache.wait = [] ∧ (faultedWaiting.ctxAt 0).heldRecord = none ∧
        (faultedWaiting.ctxAt 0).current = some { asg := asg 7, promoted := false } ∧
        ∀ c ∈ faultedWaiting.carriers, c.id = 7 → c.released = false) ∧
      ((faulted none held).Takes 2 ∧ (faulted none held).Settled ∧ ((faulted none held).ctxAt 0).state = .faulted ∧
        ((faulted none held).ctxAt 0).heldRecord.isSome = true) ∧
      ((faulted none station).Settled ∧ ((faulted none station).ctxAt 0).current = none) ∧
      (soaking.ctxAt 15).state ≠ .faulted ∧ 16 ≤ (16 : Byte).toNat :=
  ⟨⟨by decide +kernel, by decide +kernel, by decide +kernel, State.lawful_of_check (by decide +kernel), rfl, by decide +kernel,
    by decide +kernel, by decide +kernel⟩, by decide +kernel, by decide +kernel, by decide +kernel, by decide +kernel⟩

/-- A full queue beside a CLOSING entry whose carrier record waits. -/
def closing : State :=
  { station with
    queue := List.replicate 32 (.carrier (newCarrier 9 1).record)
    carriers := [{ carrier7 0 true .ok with assigned := 1, good := 1, closing := true }]
    notices := { detected := { records := true } } }

/-- Head 0 HELD with its record, and an assignment of carrier 8 waiting. -/
def heldWaiting : State :=
  { held.modCtx 0 fun c => { c with current := some { asg := asg 8, promoted := false } } with
    carriers := held.carriers ++ [newCarrier 8 1] }

theorem witness_ReadRecordsReturns :
    (held.Takes 2 ∧ held.QueueBounded ∧ 1 ≤ held.queue.length ∧ (held.ctxAt 0).heldRecord = some record) ∧
      (closing.Takes 2 ∧ closing.Lawful ∧ (∀ h, (closing.ctxAt h).heldRecord = none) ∧
        (closing.carriers.find? fun k => k.closing).isSome = true) ∧
      (station.recordsWaiting = 0 ∧ 1 ≤ (1 : Byte).toNat ∧ (4 : Byte).toNat ≤ 4 ∧ 4 < (5 : Byte).toNat) :=
  ⟨⟨by decide +kernel, (State.lawful_of_check lawful_states.2.2.2.2.2.1).queue, by decide +kernel, by decide +kernel⟩,
    ⟨by decide +kernel, State.lawful_of_check (by decide +kernel), by decide +kernel, by decide +kernel⟩, by decide +kernel⟩

theorem witness_ReadRecordsReturns_refills :
    (heldWaiting.Takes 2 ∧ heldWaiting.Lawful ∧ heldWaiting.Settled ∧ heldWaiting.cache.wait = [] ∧
        (heldWaiting.ctxAt 0).state = .held ∧ (heldWaiting.ctxAt 0).heldRecord = some record ∧
        (heldWaiting.ctxAt 0).current = some { asg := asg 8, promoted := false } ∧
        ∀ c ∈ heldWaiting.carriers, c.id = 8 → c.released = false) ∧
      (held.Lawful ∧ held.Settled ∧ held.cache.wait = [] ∧ (held.ctxAt 0).current = none) :=
  ⟨⟨by decide +kernel, State.lawful_of_check (by decide +kernel), by decide +kernel, rfl, by decide +kernel, by decide +kernel,
    by decide +kernel, by decide +kernel⟩, State.lawful_of_check lawful_states.2.2.2.2.2.1, by decide +kernel, rfl,
    by decide +kernel⟩

theorem witness_CarrierExamined :
    (soaking.Takes 2 ∧ (soaking.carrierAt 7).isSome = true ∧ soaking.carrierAt 8 = none ∧ soaking.carriers.length < 2) ∧
      (armingTwice.carrierAt 9 = none ∧ 2 ≤ armingTwice.carriers.length) ∧ soaking.Lawful ∧ soaking.Settled ∧
      soaking.cache.wait = [] ∧ ([(15, 0, 0x10, 0)] : List (Byte × Byte × ClassId × Byte)).length ≤ 16 :=
  ⟨by decide +kernel, by decide +kernel, soaking_lawful.1, soaking_lawful.2.1, rfl, by decide +kernel⟩

theorem witness_CarrierWaitsItsTurn :
    soaking.Takes 2 ∧ soaking.Settled ∧ soaking.carrierAt 8 = none ∧ soaking.carriers.length < 2 ∧
      (0 : Head).val = (0 : Byte).toNat ∧ (soaking.ctxAt 0).state ≠ .idle ∧ (soaking.ctxAt 0).state ≠ .disabled ∧
      (soaking.ctxAt 0).next = none := by decide +kernel

theorem witness_PromotionBinds :
    (soaking.Takes 2 ∧ soaking.Lawful ∧ soaking.Settled ∧ soaking.cache.wait = [] ∧ soaking.carrierAt 8 = none ∧
        soaking.carriers.length < 2 ∧ (1 : Head).val = (1 : Byte).toNat ∧ (soaking.ctxAt 1).state = .idle) ∧
      ((soaking.entryAt 0).body = .resident 0x10 cls ∧ (soaking.entryAt 0).body.matchesId 0x10 = true) ∧
      ((fetching 1).entryAt 0).body = .fetching 0x10 1 ∧
      ((∀ e, (station.entryAt e).body.matchesId 0x10 = false) ∧ station.victim = some 0) ∧
      ((∀ e, (fullCache.entryAt e).body.matchesId 0x10 = false) ∧ fullCache.victim = none) ∧
      (((loaded 0 station).entryAt 0).body.isResident = true ∧ ((loaded 0 station).entryAt 0).users = 0 ∧
        (1 : Byte).getLsbD 0 = true) :=
  ⟨⟨by decide +kernel, soaking_lawful.1, soaking_lawful.2.1, rfl, by decide +kernel, by decide +kernel, by decide +kernel,
    by decide +kernel⟩, by decide +kernel, by decide +kernel, by decide +kernel, by decide +kernel, by decide +kernel⟩

/-- Head 0 in ARMING that lacks one requirement alone. -/
def lackingRelease : State := arming false .ok true none none

theorem witness_ReleaseMarks :
    lackingRelease.Takes 2 ∧ lackingRelease.Lawful ∧ lackingRelease.Settled ∧
      lackingRelease.carrierAt 7 = some (carrier7 1 false .ok) ∧ lackingRelease.carrierAt 8 = none ∧
      ((lackingRelease.withCarrier 7 fun x => { x with released := true }).withReqs (lackingRelease.namesCarrier 7)
        fun r => { r with released := true }).ReadyOn 0 cls ∧
      soaking.carrierAt 7 = some (carrier7 1 true .ok) :=
  ⟨by decide +kernel, State.lawful_of_check lawful_states.2.2.2.1, by decide +kernel, by decide +kernel, by decide +kernel,
    by decide +kernel, by decide +kernel⟩

/-- The three ends of a start: no word at the start address, a start word of no dwell, and a start address outside the
class's pages. -/
theorem witness_ReleaseMarks_ends :
    let met := fun s : State => (s.withCarrier 7 fun x => { x with released := true }).withReqs (s.namesCarrier 7)
      fun r => { r with released := true }
    let bad := { lackingRelease with store := [] }
    let dwell := { lackingRelease with store := [(16, { word 2 with param := 0 })] }
    let far := { cls with start := 15 }
    let out := lackingRelease.modEntry 0 fun x => { x with body := .resident 0x10 far }
    (bad.Lawful ∧ bad.Settled ∧ (met bad).readyDesc 0 = some cls ∧ ((met bad).store.read cls.start).kind? = none) ∧
      (dwell.Lawful ∧ dwell.Settled ∧ (met dwell).readyDesc 0 = some cls ∧
        ((met dwell).store.read cls.start).zeroDwell = true) ∧
      (out.Lawful ∧ out.Settled ∧ (met out).readyDesc 0 = some far ∧ far.inRange far.start = false) :=
  ⟨⟨State.lawful_of_check (by decide +kernel), by decide +kernel, by decide +kernel, by decide +kernel⟩,
    ⟨State.lawful_of_check (by decide +kernel), by decide +kernel, by decide +kernel, by decide +kernel⟩,
    State.lawful_of_check (by decide +kernel), by decide +kernel, by decide +kernel, by decide +kernel⟩

theorem witness_PurgeOkMarks :
    let s := arming true .unconfirmed true none none
    s.Taking ∧ sendingNode 254 = true ∧ (s.carrierAt 7).isSome = true ∧ s.carrierAt 8 = none ∧ s.CountersBounded ∧ s.Lawful ∧
      s.Settled ∧
      ((s.withCarrier 7 fun x => { x with purge := .ok }).withReqs (s.namesCarrier 7)
        fun r => { r with purge := true }).ReadyOn 0 cls :=
  ⟨by decide +kernel, by decide +kernel, by decide +kernel, by decide +kernel, counters_bounded _ rfl,
    State.lawful_of_check (by decide +kernel), by decide +kernel, by decide +kernel⟩

theorem twoHeating_lawful : twoHeating.Lawful ∧ twoHeating.Settled ∧ twoHeating.Taking :=
  ⟨State.lawful_of_check (by decide +kernel), by decide +kernel, by decide +kernel⟩

/-- Two heads run on carrier 7; and one whose class has a settle time holds a next assignment. -/
theorem witness_PurgeLostEndsCycles_more :
    (twoHeating.Lawful ∧ twoHeating.Settled ∧ twoHeating.Taking) ∧
      (twoHeating.cache.wait = [] ∧ (twoHeating.carrierAt 7).isSome = true ∧
        (allHeads.filter fun h => decide ((twoHeating.ctxAt h).state = .heating) && twoHeating.namesCarrier 7 h) = [0, 1] ∧
        ∀ h, (twoHeating.ctxAt h).next = none) ∧
      ((heatingTwice (word 2)).Lawful ∧ (heatingTwice (word 2)).Settled ∧
        (heatingTwice (word 2)).Runs 0 (asg 7) (word 2) .soak cls ∧
        ((heatingTwice (word 2)).ctxAt 0).next = some (asg 8) ∧ cls.settle ≠ 0) :=
  ⟨twoHeating_lawful, by decide +kernel, State.lawful_of_check lawful_states.2.2.2.2.2.2.2.2.2.2, by decide +kernel,
    by decide +kernel, by decide +kernel, by decide +kernel⟩

theorem witness_PurgeLostEndsCycles :
    soaking.Taking ∧ sendingNode 1 = true ∧ soaking.CountersBounded ∧ (soaking.carrierAt 7).isSome = true ∧ soaking.carrierAt 8 = none ∧
      soaking.Lawful ∧ soaking.Settled ∧ soaking.cache.wait = [] ∧ soaking.Runs 0 (asg 7) (word 2) .soak cls ∧
      (∀ j, j ≠ 0 → (soaking.ctxAt j).state = .heating → soaking.namesCarrier 7 j = false) ∧
      (∀ h, (lackingRelease.ctxAt h).state = .heating → lackingRelease.namesCarrier 7 h = false) :=
  ⟨soaking_lawful.2.2, by decide +kernel, soaking_lawful.1.counters, by decide +kernel, by decide +kernel, soaking_lawful.1,
    soaking_lawful.2.1, rfl,
    by decide +kernel, by decide +kernel, by decide +kernel⟩

theorem witness_InterlockFollowsPin :
    (soaking.resetHeld = false ∧ soaking.Lawful ∧ soaking.Settled ∧ soaking.cache.wait = [] ∧
        soaking.Runs 0 (asg 7) (word 2) .soak cls ∧ ∀ j, j ≠ 0 → (soaking.ctxAt j).state ≠ .heating) ∧
      (arming true .ok false none none).Lawful ∧ (arming true .ok false none none).Settled ∧
      (∀ h, ((arming true .ok false none none).ctxAt h).state ≠ .heating) ∧
      (twoHeating.Lawful ∧ twoHeating.Settled ∧ twoHeating.Taking) ∧ twoHeating.cache.wait = [] ∧
      (allHeads.filter fun h => decide ((twoHeating.ctxAt h).state = .heating)) = [0, 1] ∧
      ∀ h, (twoHeating.ctxAt h).next = none :=
  ⟨⟨rfl, soaking_lawful.1, soaking_lawful.2.1, rfl, by decide +kernel, by decide +kernel⟩,
    State.lawful_of_check (by decide +kernel), by decide +kernel, by decide +kernel, twoHeating_lawful, rfl, by decide +kernel,
    by decide +kernel⟩

theorem witness_SettleExpiryMeets :
    let s := arming true .ok true (some 0) none
    s.Taking ∧ (s.ctxAt 0).settle = some 0 ∧ s.Lawful ∧ s.Settled ∧ (soaking.ctxAt 0).settle ≠ some 0 :=
  ⟨by decide +kernel, by decide +kernel, State.lawful_of_check (by decide +kernel), by decide +kernel, by decide +kernel⟩

theorem witness_SampleTaken :
    soaking.CountersBounded ∧
    (soaking.Taking ∧ sendingNode 20 = true ∧ (0 : Head).val = (0 : Byte).toNat ∧ (soaking.ctxAt 0).state ≠ .disabled ∧
        (soaking.configAt 0).sensor = 20 ∧ (soaking.ctxAt 0).missed ≤ 65535 ∧ (soaking.ctxAt 0).overruns ≤ 65535) ∧
      (soaking.intakeAt 0).lastSeq = some 5 ∧ (soaking.intakeAt 0).lastSeq ≠ some 6 ∧
      (31 : Byte).toNat < soaking.minStrength ∧ soaking.minStrength ≤ (32 : Byte).toNat ∧
      ([15, 0, 0, 0, 0] : List Byte).length = 5 ∧ (soaking.ctxAt 15).state = .disabled ∧ 16 ≤ u8At [16, 0, 0, 0, 0] 0 :=
  ⟨soaking_lawful.1.counters, by decide +kernel⟩

/-- Head 0 running a FEED with or without a baseline and a chain. -/
def feeding (baseline : Option Byte) (chains : Bool) : State :=
  heating { word 4 with next := chains } (if chains then .word (word 2) else .empty)
    fun c => { c with feedBaseline := baseline }

theorem witness_DstatTaken_next :
    (armingTwice.Lawful ∧ armingTwice.Settled ∧ armingTwice.cache.wait = [] ∧ (armingTwice.ctxAt 0).next = some (asg 8)) ∧
      ((heatingTwice (word 4)).Lawful ∧ (heatingTwice (word 4)).Settled ∧
        (heatingTwice (word 4)).Runs 0 (asg 7) (word 4) .feed cls) :=
  ⟨⟨State.lawful_of_check (by decide +kernel), by decide +kernel, rfl, by decide +kernel⟩,
    State.lawful_of_check (by decide +kernel), by decide +kernel, by decide +kernel⟩

theorem witness_DstatTaken :
    soaking.CountersBounded ∧ (soaking.Taking ∧ sendingNode 40 = true ∧ (soaking.ctxAt 0).state ≠ .disabled ∧ (soaking.configAt 0).drive = 40 ∧
        (soaking.ctxAt 0).energy ≤ 4294967295 ∧ soaking.Runs 0 (asg 7) (word 2) .soak cls) ∧
      ((feeding none false).runningKind 0 = some .feed ∧ ((feeding none false).ctxAt 0).feedBaseline = none) ∧
      (((feeding (some 1) false).ctxAt 0).feedBaseline = some 1 ∧ (feeding (some 1) false).Lawful ∧
        (feeding (some 1) false).Settled ∧ (feeding (some 1) false).Runs 0 (asg 7) (word 4) .feed cls) ∧
      ((feeding (some 1) true).Lawful ∧
        (feeding (some 1) true).Runs 0 (asg 7) { word 4 with next := true } .feed cls ∧
        ((feeding (some 1) true).ctxAt 0).prefetch = .word (word 2) ∧ (word 2).kind? ≠ none ∧ (word 2).zeroDwell = false) ∧
      ((station.ctxAt 0).state = .idle ∧ (held.ctxAt 0).state = .held ∧ ((faulted none station).ctxAt 0).state = .faulted ∧
        (lackingRelease.ctxAt 0).state = .arming ∧ (lackingRelease.ctxAt 0).next = none) :=
  ⟨soaking_lawful.1.counters, by decide +kernel, by decide +kernel, ⟨by decide +kernel, State.lawful_of_check (by decide +kernel), by decide +kernel,
    by decide +kernel⟩, ⟨State.lawful_of_check (by decide +kernel), by decide +kernel, by decide +kernel, by decide +kernel,
    by decide +kernel⟩, by decide +kernel⟩

theorem witness_ExpiriesEndCycles :
    (soaking.Taking ∧ soaking.Lawful ∧ soaking.Settled ∧ soaking.cache.wait = [] ∧
        soaking.Runs 0 (asg 7) (word 2) .soak cls ∧ (soaking.intakeAt 0).staleTimer = some 0) ∧
      ((heating (word 1) .empty id).Lawful ∧ (heating (word 1) .empty id).Runs 0 (asg 7) (word 1) .ramp cls ∧
        ((heating (word 1) .empty id).ctxAt 0).stepTimer = some 0) ∧
      ((heating (word 5) .empty id).Lawful ∧ (heating (word 5) .empty id).Runs 0 (asg 7) (word 5) .cool cls) ∧
      ((heatingTwice (word 2)).Lawful ∧ (heatingTwice (word 2)).Runs 0 (asg 7) (word 2) .soak cls) ∧
      (soaking.ctxAt 1).state ≠ .heating :=
  ⟨⟨soaking_lawful.2.2, soaking_lawful.1, soaking_lawful.2.1, rfl, by decide +kernel, by decide +kernel⟩,
    ⟨State.lawful_of_check (by decide +kernel), by decide +kernel, by decide +kernel⟩,
    ⟨State.lawful_of_check (by decide +kernel), by decide +kernel⟩,
    ⟨State.lawful_of_check (by decide +kernel), by decide +kernel⟩, by decide +kernel⟩

/-- Head 0 running a HOLD with its dwell due, with flags and a prefetched word. -/
def holding (next cont : Bool) (p : Prefetch) : State := heating { word 3 with next, cont } p id

theorem witness_DwellExpiryActs :
    (soaking.Taking ∧ soaking.Lawful ∧ soaking.Settled ∧ soaking.cache.wait = [] ∧
        soaking.Runs 0 (asg 7) (word 2) .soak cls ∧ (soaking.ctxAt 0).stepTimer = some 0) ∧
      ((holding true true .empty).Lawful ∧ (holding true true .empty).Settled) ∧
      ((holding true false (.word (word 1))).Lawful ∧
        (holding true false (.word (word 1))).Runs 0 (asg 7) { word 3 with next := true } .hold cls ∧
        (word 1).kind? ≠ none ∧ (word 1).zeroDwell = false ∧ (word 6).kind? = none) ∧
      ((holding true false (.word { word 2 with param := 0 })).Lawful ∧
        ((holding true false (.word { word 2 with param := 0 })).ctxAt 0).prefetch = .word { word 2 with param := 0 } ∧
        ({ word 2 with param := 0 } : StepWord).kind? ≠ none ∧ ({ word 2 with param := 0 } : StepWord).zeroDwell = true) ∧
      ((holding false true (.word { word 3 with param := 0 })).Lawful ∧
        ({ word 3 with param := 0 } : StepWord).zeroDwell = true) ∧
      ((holding false true .rangeError).Lawful ∧ ((holding false true .rangeError).ctxAt 0).prefetch = .rangeError) :=
  ⟨⟨soaking_lawful.2.2, soaking_lawful.1, soaking_lawful.2.1, rfl, by decide +kernel, by decide +kernel⟩,
    ⟨State.lawful_of_check (by decide +kernel), by decide +kernel⟩,
    ⟨State.lawful_of_check (by decide +kernel), by decide +kernel, by decide +kernel, by decide +kernel, by decide +kernel⟩,
    ⟨State.lawful_of_check (by decide +kernel), by decide +kernel, by decide +kernel, by decide +kernel⟩,
    ⟨State.lawful_of_check (by decide +kernel), by decide +kernel⟩, State.lawful_of_check (by decide +kernel),
    by decide +kernel⟩

theorem witness_ServiceTakesTurns :
    let s := station.modIntake 15 fun i => { i with slot := some { seq := 0, temp := 16000 } }
    s.Taking ∧ s.NextToServe 15 { seq := 0, temp := 16000 } ∧ (s.ctxAt 15).state ≠ .heating ∧
      ∀ h, (station.intakeAt h).slot = none := by decide +kernel

theorem witness_ServiceComputes :
    soaking.Taking ∧ soaking.NextToServe 0 { seq := 5, temp := 190 } ∧ (soaking.ctxAt 0).state = .heating ∧
      soaking.runningStep 0 = some (word 2, .soak, cls) ∧ 190 ≤ cls.maxTemp ∧
      soaking.demandAt 0 .soak (word 2) cls 190 ≤ soaking.budget - soaking.otherGrants 0 ∧
      (soaking.ctxAt 0).stepDone .soak (word 2) 190 = false := by decide +kernel

theorem witness_ServiceEndsSteps :
    let s := heating (word 5) .empty fun c => { c with lastTemp := none }
    (s.Taking ∧ s.Lawful ∧ s.Settled ∧ s.cache.wait = [] ∧ s.NextToServe 0 { seq := 5, temp := 190 } ∧
        s.Runs 0 (asg 7) (word 5) .cool cls ∧ 190 ≤ cls.maxTemp ∧
        s.demandAt 0 .cool (word 5) cls 190 ≤ s.budget - s.otherGrants 0 ∧
        (s.ctxAt 0).stepDone .cool (word 5) 190 = true) ∧
      ((s.modIntake 0 fun i => { i with slot := some { seq := 5, temp := 601 } }).NextToServe 0 { seq := 5, temp := 601 } ∧
        cls.maxTemp < 601) ∧
      ((heating { word 5 with next := true } (.word { word 2 with param := 0 }) id).Lawful ∧
        (heating { word 5 with next := true } (.word { word 2 with param := 0 }) id).Runs 0 (asg 7)
          { word 5 with next := true } .cool cls) :=
  ⟨⟨by decide +kernel, State.lawful_of_check (by decide +kernel), by decide +kernel, rfl, by decide +kernel, by decide +kernel,
    by decide +kernel, by decide +kernel, by decide +kernel⟩, by decide +kernel, State.lawful_of_check (by decide +kernel),
    by decide +kernel⟩

/-! ### The manual's worked examples, one step each -/

/-- A head HEATING with a demand and an equal grant at a tier. -/
def row (demand : Nat) (tier : Tier) : Row := { demand, grant := demand, tier := some tier }

/-- A class of span 1 with the trims of the reference case. -/
def refClass : ClassDesc := { cls with span := 1, trims := [0, 40], maxTemp := 9000, liquidus := 9000 }

/-- The reference case of 06_demand_computation.md section 6.9 and 07_power_share_table_and_grants.md section 7.10. -/
def refCase : State :=
  let heat := fun (s : State) (h : Head) (r : Row) => (s.modRow h fun _ => r).modCtx h fun c => { c with state := .heating }
  let s := heat (heat (heat (heat (heat (heat (heat station 0 (row 700 0)) 2 (row 900 0)) 3 { row 1250 1 with grant := 860 })
    7 (row 450 1)) 9 (row 500 2)) 12 (row 300 3)) 14 (row 250 3)
  (((s.setConfig 3 { config 3 with neighbours := [{ head := 2, coeff := 102 }, { head := 4, coeff := 102 }] }).modEntry 0
    fun x => { x with body := .resident 0x10 refClass, users := 1 }).modIntake 3
    fun i => { i with slot := some { seq := 1, temp := 4180 } }).modCtx 3 fun c =>
    { c with
      current := some { asg := { asg 7 with classId := 0x11 }, promoted := true }, binding := some { entry := 0, variant := 1 },
      step := some { code := 1, tier := 1, target := 7600, window := 100, param := 1500, ceiling := 1800, base := 600 },
      stepClock := 1200, tStart := some 2500, lastTemp := some 4100, iAcc := 102400, peak := some 4200 }

theorem witness_ServiceClaims :
    refCase.Taking ∧ refCase.NextToServe 3 { seq := 1, temp := 4180 } ∧ (refCase.ctxAt 3).state = .heating ∧
      (∃ w, refCase.runningStep 3 = some (w, .ramp, refClass) ∧ (refCase.rowAt 3).tier = some 1 ∧
        refCase.demandAt 3 .ramp w refClass 4180 = 1278 ∧ refCase.budget - refCase.otherGrants 3 = 900 ∧
        (refCase.ctxAt 3).stepDone .ramp w 4180 = false) ∧ 4180 ≤ refClass.maxTemp :=
  ⟨by decide +kernel, by decide +kernel, by decide +kernel,
    ⟨{ code := 1, tier := 1, target := 7600, window := 100, param := 1500, ceiling := 1800, base := 600 },
      by decide +kernel, by decide +kernel, by decide +kernel, by decide +kernel, by decide +kernel⟩, by decide +kernel⟩

/-- Chapter 6: demand 1278, accumulator 107200, grant 900, limited; chapter 7: head 14 capped to 0, head 12 to 172. -/
theorem test_service_reference_case :
    after (exec .service refCase) (fun t =>
      t.rowAt 3 = { demand := 1278, grant := 900, tier := some 1 } && (t.ctxAt 3).iAcc = 107200 && (t.ctxAt 3).limited &&
      (t.rowAt 14).cap = some { limit := 0, claimant := 3 } && (t.rowAt 12).cap = some { limit := 172, claimant := 3 } &&
      (t.rowAt 9).cap = none && (t.rowAt 12).grant = 300 && t.notices.detected.claim &&
      (t.ring.drive.map fun f => (f.head, f.grant, f.source)) = [(3, 900, .headroom)]) = true := by decide +kernel

/-- Chapter 6, "a soak that overshoots": services 1 to 3. -/
theorem test_loop_soak_overshoots :
    loopTerms cls (-30) 1500 5000 false 0 500 1500 7600 7647 = { err := -47, acc := 3120, d1 := 383, demand := 383 } ∧
      loopTerms cls (-30) 1500 3120 false 0 500 1500 7600 7900 = { err := -300, acc := 0, d1 := -242, demand := 0 } ∧
      limitedAfter (loopTerms cls (-30) 1500 3120 false 0 500 1500 7600 7900) 1500 0 = true ∧
      loopTerms cls (-30) 1500 0 true 0 500 1500 7600 7601 = { err := -1, acc := 0, d1 := 483, demand := 483 } := by
  decide +kernel

/-- Chapter 6, "a ramp pinned at its ceiling": services A and B. -/
theorem test_loop_ramp_pinned :
    loopTerms cls 0 2000 20000 false 0 600 1200 5400 5000 = { err := 400, acc := 36000, d1 := 1740, demand := 1200 } ∧
      limitedAfter (loopTerms cls 0 2000 20000 false 0 600 1200 5400 5000) 1200 1200 = true ∧
      loopTerms cls 0 2000 36000 true 0 600 1200 5350 5000 = { err := 350, acc := 36000, d1 := 1615, demand := 1200 } := by
  decide +kernel

/-- Chapter 6, "time above liquidus": the services at 109 and 127 ms. -/
theorem test_wetting_interval :
    wetAfter { sampleMark := some 109, wet := 9 } 7300 20 127 7340 = 27 ∧
      wetAfter { sampleMark := some 127, wet := 27 } 7300 20 131 7290 = 27 ∧
      wetAfter { sampleMark := none, wet := 0 } 7300 20 104 7310 = 0 := by decide +kernel

/-- Chapter 7, "a budget cut": grants 1200, 900 and 600 under a budget of 2000. -/
theorem test_set_budget_cut :
    after (exec (.setBudget 2 5 [0x07, 0xD0])
      { (((station.modRow 1 fun _ => row 1200 0).modRow 5 fun _ => row 900 1).modRow 8 fun _ => row 600 2) with budget := 3000 })
      (fun t => (t.rowAt 1).grant = 888 && (t.rowAt 5).grant = 666 && (t.rowAt 8).grant = 444 && t.budget = 2000 &&
        (t.ring.drive.map fun f => (f.head, f.grant, f.source)) = [(1, 888, .budgetCut), (5, 666, .budgetCut), (8, 444, .budgetCut)] &&
        (t.ring.general.map Frame.payload) = [[0x01, 0x03, 0x00, 0x07, 0xD0, 0x03]]) = true := by decide +kernel

/-- Chapter 2, "victim choice on a busy cache": entry 4 is the victim; the recency positions after the miss. -/
theorem test_victim_and_recency :
    busyCache.victim = some 4 ∧
      (busyCache.fetchInto 1 0x0740 4).entryAt 4 = { body := .fetching 0x0740 100, users := 1, recency := 0 } ∧
      (allEntries.map fun e => ((busyCache.fetchInto 1 0x0740 4).entryAt e).recency) = [5, 1, 6, 3, 0, 2, 7, 4] := by
  decide +kernel

/-- Two heads bound to two fetches of neighbouring ids (chapter 2, "two heads, a merge and a late load"). -/
def twoFetches : State :=
  let arm := fun (s : State) (h : Head) (e : EntryIx) (c : ClassId) => s.modCtx h fun x =>
    { x with state := .arming, current := some { asg := { asg 7 with classId := c }, promoted := true },
             binding := some { entry := e, variant := 0 },
             reqs := some { bound := false, purge := true, released := false, interlock := true, settle := true } }
  let s := (station.modEntry 2 fun x => { x with body := .fetching 0x0412 62, users := 1 }).modEntry 3
    fun x => { x with body := .fetching 0x0413 62, users := 1 }
  { arm (arm s 1 2 0x0412) 2 3 0x0413 with carriers := [carrier7 2 false .ok] }

theorem test_classload_merges :
    after (exec (.classload 2 5 (descBytes { cls with classId := 0x0412, span := 1, trims := [0, 0] })) twoFetches)
      (fun t => (t.entryAt 2).users = 2 && (t.entryAt 2).recency = 0 && (t.entryAt 3).body.isInvalid &&
        (t.ctxAt 1).binding = some { entry := 2, variant := 0 } && (t.ctxAt 2).binding = some { entry := 2, variant := 1 } &&
        (t.ctxAt 2).reqs = some { bound := true, purge := true, released := false, interlock := true, settle := true } &&
        (t.ring.general.map Frame.payload) = [[0x05, 0x00, 0x00, 0x02]]) = true := by decide +kernel

/-- Heads 0 to 4 and 7 before a CARRIER frame (chapter 3, "a CARRIER frame against mixed heads"). -/
def mixedHeads : State :=
  let old := fun (j : Byte) (p : Bool) => some ({ asg := { asg 0x000A0031 with joint := j }, promoted := p } : Current)
  { ((((station.modCtx 1 fun c => { c with state := .heating, current := old 1 true }).modCtx 2
    fun c => { c with state := .arming, current := old 2 true }).modCtx 3 fun c => { c with state := .faulted }).modCtx 4
    fun c => { c with state := .held, current := old 4 false }) with carriers := [newCarrier 0x000A0031 3] }

theorem test_carrier_mixed_heads :
    after (exec (.carrier 2 5 ([0x00, 0x0A, 0x00, 0x32, 7] ++ [0, 0, 0x04, 0x12, 0] ++ [1, 1, 0x04, 0x12, 0] ++
        [2, 2, 0x04, 0x13, 0] ++ [7, 7, 0x05, 0x20, 0] ++ [3, 4, 0x05, 0x20, 0] ++ [1, 5, 0x04, 0x12, 0] ++
        [4, 6, 0x05, 0x20, 0])) mixedHeads)
      (fun t => (t.ring.general.map Frame.payload) = [[0x03, 0x00, 0x00, 5, 2, 3, 7, 0x0C, 5, 1, 0x07]] &&
        (t.ctxAt 0).state = .arming && (t.ctxAt 1).next.isSome && (t.ctxAt 3).current.any (fun c => !c.promoted) &&
        (t.ctxAt 3).state = .faulted && (t.ctxAt 4).next.isSome &&
        (t.carriers.map fun c => (c.id, c.assigned, c.live)) = [(0x000A0031, 3, 3), (0x000A0032, 5, 5)]) = true := by
  decide +kernel

/-- Chapter 1, "a deferred range error": word 95 with NEXT ends PROFILE_RANGE at 95. -/
theorem test_dwell_expiry_range_error :
    after (exec (.dwellExpiry 0) (heating { word 3 with next := true } .rangeError fun c => { c with stepAddr := 95 }))
      (fun t => (t.queue.map fun r => match r with
        | .joint j => (j.outcome, j.endAddr, j.endCode.val)
        | .carrier _ => (.good, 0, 0)).head? = some (.profileRange, 95, 3) && (t.ctxAt 0).state = .faulted &&
        (t.ctxAt 0).cause = some .profileRange) = true := by decide +kernel

/-- Chapter 4, "a fault against a full queue": SENSOR_LOST at address 66 with 640 ms left; the record is held, the next
assignment waits, and the carrier stays OPEN. -/
theorem test_staleness_expiry_full_queue :
    after (exec (.stalenessExpiry 0) { heating (word 2) .empty (fun c =>
        { c with stepAddr := 66, stepTimer := some 640, next := some (asg 8) }) with
        queue := List.replicate 32 (.carrier (newCarrier 9 1).record)
        carriers := [{ carrier7 1 true .ok with assigned := 4, good := 3 }, newCarrier 8 1] })
      (fun t => (t.ctxAt 0).state = .faulted && (t.ctxAt 0).cause = some .sensorLost &&
        (t.ctxAt 0).current = some { asg := asg 8, promoted := false } && (t.ctxAt 0).next = none &&
        ((t.ctxAt 0).heldRecord.map fun r => (r.outcome, r.endAddr, r.endCode.val, r.residual)) = some (.sensorLost, 66, 2, 640) &&
        (t.carriers.map fun c => (c.closing, c.live, c.good, c.fault)) = [(false, 0, 3, 1), (false, 1, 0, 0)] &&
        (t.ctxAt 0).settle = some 3) = true := by decide +kernel

/-- Chapter 8, "refill with held heads and two closing carriers". -/
def refillCase : State :=
  let rec' := fun (h : Head) (id : CarrierId) (o : CycleOutcome) => { record with head := h, carrier := id, outcome := o }
  { (((station.modCtx 2 fun c =>
      { c with state := .held, heldRecord := some (rec' 2 1 .good), current := some { asg := asg 2, promoted := false } }).modCtx 5
      fun c => { c with state := .faulted, cause := some .sensorLost, heldRecord := some (rec' 5 2 .sensorLost) }).modCtx 9
      fun c => { c with state := .held, heldRecord := some (rec' 9 2 .exitLow) }) with
    queue := List.replicate 32 (.carrier (newCarrier 9 1).record)
    carriers := [{ newCarrier 1 1 with live := 0, good := 1 }, { newCarrier 2 3 with live := 1, fault := 1, reject := 1 }] }

theorem test_read_records_refills :
    after (exec (.readRecords 2 5 [4]) refillCase) (fun t =>
      t.queue.length = 32 && t.recordsWaiting = 0 && (t.ctxAt 2).state = .arming && (t.ctxAt 5).state = .faulted &&
      (t.ctxAt 9).state = .idle && (t.carriers.map CarrierEntry.id) = [2] &&
      (t.ring.general.map fun f => f.payload.take 6) = [[0x01, 0x0C, 0x00, 4, 32, 0]]) &&
    after (exec (.readRecords 2 5 [2]) refillCase) (fun t =>
      (t.ctxAt 9).state = .held && (t.carriers.map CarrierEntry.closing) = [true, false] &&
      (t.ring.general.map fun f => f.payload.take 6) = [[0x01, 0x0C, 0x00, 2, 32, 2]]) = true := by decide +kernel

/-- Chapter 5, "one head's samples through a cycle": sequence 45 after 42, weak; sequence 44 after 46, strong. -/
theorem test_sample_gaps :
    after (exec (.sample 20 [0, 45, 0x13, 0xEC, 20]) (soaking.modIntake 0 fun i => { i with lastSeq := some 42, slot := none }))
      (fun t => (t.ctxAt 0).missed = 2 && (t.intakeAt 0).slot = none && (t.intakeAt 0).lastSeq = some 45) &&
    after (exec (.sample 20 [0, 44, 0x14, 0x00, 100])
        ((soaking.modIntake 0 fun i => { i with lastSeq := some 46, slot := none }).modCtx 0 fun c => { c with missed := 2 }))
      (fun t => (t.ctxAt 0).missed = 255 && (t.intakeAt 0).slot = some { seq := 44, temp := 5120 } &&
        (t.intakeAt 0).staleTimer = some 100) = true := by decide +kernel

/-- Chapter 5, "round-robin order": with the pointer at 4, head 7 is served before heads 12 and 2. -/
theorem test_service_round_robin :
    after (exec .service { ((station.modIntake 2 fun i => { i with slot := some { seq := 0, temp := 1 } }).modIntake 7
        fun i => { i with slot := some { seq := 0, temp := 2 } }).modIntake 12
        (fun i => { i with slot := some { seq := 0, temp := 3 } }) with pointer := 4 })
      (fun t => t.pointer = 7 && (t.intakeAt 7).slot = none && (t.intakeAt 2).slot.isSome && (t.intakeAt 12).slot.isSome) =
      true := by decide +kernel

/-! ### Frames, replies and the other commands -/

/-- R153: over the nine bytes 31h to 39h the CRC is 29B1h. -/
theorem test_crc_reference : crc16 [0x31, 0x32, 0x33, 0x34, 0x35, 0x36, 0x37, 0x38, 0x39] = 0x29B1 := by decide +kernel

/-- R163 and R167: the IDENTIFY reply. -/
theorem test_identify :
    after (exec (.identify 2 5 []) station) (fun t => t.ring.general =
      [{ dest := 2, src := 1, kind := 2, tag := 5,
         payload := [1, 1, 0, 0x0A, 0x3C, 0x10, 0x16, 1, 1, 16, 8, 0x04, 0x00, 32] }]) = true := by decide +kernel

/-- R162: the fetch limit 5 is held to 10; the address 255 is refused. -/
theorem test_set_station :
    after (exec (.setStation 2 5 [9, 0, 5, 40]) station) (fun t => t.ring.cc = 9 && t.cache.fetchLimit = 10 &&
      t.minStrength = 40 && (t.ring.general.map Frame.payload) = [[1, 2, 0, 9, 0, 10, 40]]) &&
    after (exec (.setStation 2 5 [255, 0, 5, 40]) station) (fun t => t.ring.cc = 0) = true := by decide +kernel

/-- R3 and R20: the rate 0 of a RAMP is stored as 1, and the clamp is counted; a locked page is refused. -/
theorem test_write_steps :
    after (exec (.writeSteps 2 5 ([0, 32, 1] ++ stepWordBytes { word 1 with param := 0 })) soaking)
      (fun t => (t.store.read 32).param = 1 && (t.ring.general.map Frame.payload) = [[1, 6, 0, 1]]) &&
    after (exec (.writeSteps 2 5 ([0, 31, 2] ++ stepWordBytes (word 1) ++ stepWordBytes (word 1))) soaking)
      (fun t => t.store = soaking.store && (t.ring.general.map Frame.payload) = [[1, 6, 2]]) = true := by decide +kernel

/-- R22: a step word is sent back high byte first. -/
theorem test_read_steps :
    after (exec (.readSteps 2 5 [0, 16, 1]) soaking) (fun t => (t.ring.general.map Frame.payload) =
      [[1, 7, 0, 0, 16, 1, 0x12, 0, 0, 200, 0, 50, 0, 100, 0, 0, 0x03, 0xE8, 0, 50]]) = true := by decide +kernel

/-- R43 and R86: the lengths of the READ_CLASS and READ_HEAD replies. -/
theorem test_reply_lengths :
    after (exec (.readClass 2 5 [0, 0, 0]) soaking) (fun t => (t.ring.general.map fun f => f.payload.length) = [71]) &&
    after (exec (.readHead 2 5 [0]) soaking) (fun t => (t.ring.general.map fun f => f.payload.length) = [141]) &&
    after (exec (.readStatus 2 5 [0]) soaking) (fun t => (t.ring.general.map fun f => f.payload.length) = [42]) = true := by
  decide +kernel

/-- R42: an entry in use is not flushed. -/
theorem test_flush_class :
    after (exec (.flushClass 2 5 [1, 0, 0]) soaking) (fun t => (t.ring.general.map Frame.payload) = [[1, 9, 0x0A, 0]]) &&
    after (exec (.flushClass 2 5 [0, 0, 16]) (loaded 0 station)) (fun t => (t.entryAt 0).body.isInvalid &&
      (t.ring.general.map Frame.payload) = [[1, 9, 0, 1]]) = true := by decide +kernel

/-- R65: the rating is held to 2500 and the staleness limit to 200, and the head is enabled. -/
theorem test_set_head :
    after (exec (.setHead 2 5 [4, 1, 24, 44, 0x0F, 0xFF, 1, 0, 0]) station) (fun t => (t.ctxAt 4).state = .idle &&
      (t.configAt 4).rating = 2500 && (t.configAt 4).staleness = 200 &&
      (t.ring.general.map Frame.payload) = [[1, 4, 0, 4, 1, 24, 44, 0x09, 0xC4, 0, 200, 0]]) = true := by decide +kernel

/-- R83 and R133: a HALT of a head in a FEED step ends its cycle HALTED with a STOP that carries a feed cancel. -/
theorem test_halt_feeding :
    after (exec (.halt 2 5 [0, 0]) (feeding none false)) (fun t => (t.ctxAt 0).state = .idle && t.rowAt 0 = {} &&
      (t.ring.drive.map fun f => (f.head, f.source, f.cancel)) = [(0, .stop, true)] && t.carriers = [] &&
      (t.queue.map fun r => match r with | .joint j => some j.outcome | .carrier _ => none) = [some .halted, none] &&
      (t.ring.general.map Frame.payload) = [[1, 10, 0, 1, 1]]) = true := by decide +kernel

/-- R85: a FAULTED head with nothing left goes IDLE, and the FAULT cause goes absent. -/
theorem test_clear_fault :
    after (exec (.clearFault 2 5 [0]) (faulted none station)) (fun t => (t.ctxAt 0).state = .idle &&
      !t.notices.detected.fault && (t.ring.general.map Frame.payload) = [[1, 11, 0, 1]]) = true := by decide +kernel

/-- R173 and R174: enabling a pending cause announces it, and the reply follows the ATTENTION. -/
theorem test_set_notices :
    after (exec (.setNotices 2 5 [2]) { faulted none station with
        ring := { station.ring with cc := 9 }, notices := { detected := { fault := true }, pending := { fault := true } } })
      (fun t => (t.ring.general.map fun f => (f.dest, f.kind, f.payload)) =
        [(9, 7, [2, 0]), (2, 2, [1, 13, 0, 2, 2, 0, 1])]) = true := by decide +kernel

/-- R55, R52: the RELEASE that meets the last requirement starts the head on its start word. -/
theorem test_release_starts :
    after (exec (.release 2 5 [0, 0, 0, 7]) lackingRelease) (fun t => (t.ctxAt 0).state = .heating &&
      (t.ctxAt 0).step = some (word 2) && (t.ctxAt 0).stepTimer = some 100 && (t.intakeAt 0).staleTimer = some 100 &&
      t.rowAt 0 = { tier := some 1 }) = true := by decide +kernel

/-- R53, R54, R56, R57: PURGE and the interlock at an ARMING and a HEATING head. -/
theorem test_purge_and_interlock :
    after (exec (.purgeOk 2 7) (arming true .unconfirmed true none none)) (fun t => (t.ctxAt 0).state = .heating) &&
    after (exec (.purgeLost 2 7) soaking) (fun t => (t.ctxAt 0).state = .idle && t.queue.length = 2) &&
    after (exec .interlockOpening soaking) (fun t => (t.ctxAt 0).state = .idle && !t.interlock && t.queue.length = 2) &&
    after (exec .interlockClosing (arming true .ok false none none)) (fun t => (t.ctxAt 0).state = .heating) = true := by
  decide +kernel

/-- R10, R103: a feed counter that differs from the baseline ends the FEED step. -/
theorem test_dstat_ends_feed :
    after (exec (.dstat 40 [0, 0, 100, 0, 2]) (feeding (some 1) true)) (fun t => (t.ctxAt 0).stepAddr = 17 &&
      (t.ctxAt 0).step = some (word 2) && (t.ctxAt 0).stepClock = 0 && (t.ctxAt 0).feedOwed = false) = true := by decide +kernel

/-- R12, R35, R58: a step timeout, a fetch expiry and a settle expiry. -/
theorem test_expiries :
    after (exec (.stepTimeout 0) (heating (word 1) .empty id)) (fun t =>
      (t.queue.map fun r => match r with | .joint j => some j.outcome | .carrier _ => none) = [some .rampTimeout, none]) &&
    after (exec (.fetchTimerExpiry 0) (fetching 0)) (fun t => (t.entryAt 0).body.isInvalid &&
      (t.ctxAt 0).cause = some .classUnavailable) &&
    after (exec (.settleTimerExpiry 0) (arming true .ok true (some 0) none)) (fun t => (t.ctxAt 0).state = .heating) = true := by
  decide +kernel

/-- R164, R160: station reset leaves its own REPLY alone in the general queue, and the STOP of the running head waits. -/
theorem test_reset_station :
    after (exec (.resetStation 2 5 []) soaking) (fun t => t.ring.general.length = 1 && (t.ctxAt 0).state = .idle &&
      (t.ring.drive.map fun f => (f.head, f.source)) = [(0, .stop)] && t.carriers = []) = true := by decide +kernel

/-- R159: a DRIVE frame after a forwarded one, and the other way round. -/
theorem test_ring_out :
    after (exec .ringOutSend (sending true true true .forward)) (fun t => t.ring.lastSent = .drive && t.ring.drive = []) &&
    after (exec .ringOutSend (sending true true true .drive)) (fun t => t.ring.wire = some [1, 2] && t.ring.forward = []) =
      true := by decide +kernel

/-- R154 to R156: a REQUEST for the part is answered; an unassigned code is refused UNKNOWN_REQUEST (R161). -/
theorem test_frame_arrival :
    after (exec (.frameArrival { frameTo 1 1 [0x10] with tag := 6 }.bytes) station) (fun t =>
      t.ring.general = [{ dest := 2, src := 1, kind := 2, tag := 6, payload := [1, 0x10, 5] }]) &&
    after (exec (.unknownRequest 2 6 [0x10]) station) (fun t => (t.ring.general.map Frame.payload) = [[1, 0x10, 5]]) = true := by
  decide +kernel

/-- R135: a frame that replaces a waiting feed request carries the waiting length, its own included; a STOP carries none. -/
theorem test_feed_carried :
    let waits : DriveFrame := { dest := 40, head := 0, grant := 1, activity := some .feed, source := .control,
                                feedLen := some 100, cancel := false }
    (placeIn [waits] { waits with feedLen := some 250 }).map DriveFrame.feedLen = [some 100] ∧
      (placeIn [waits] { waits with activity := some .ramp, feedLen := none }).map DriveFrame.feedLen = [some 100] ∧
      (placeIn [waits] (station.stopFrame 0 true)).map DriveFrame.feedLen = [none] := by decide +kernel

/-- R170: the rises of the overflow and of the foreign counter in one arrival are one onset of RING and one ATTENTION. -/
theorem test_broadcast_one_report :
    after (exec (.frameArrival (frameTo 255 0x13 [1]).bytes) { forwarding 4 with
        notices := { enables := { ring := true } }, ring := { (forwarding 4).ring with cc := 9 } })
      (fun t => t.ring.counters = { overflow := 1, foreign := 1 } && t.notices.pending = {} &&
        (t.ring.general.map Frame.payload) = [[8, 0]]) = true := by decide +kernel

/-- R135, R157 and log entry 31: a STOP replaces a waiting STOP whole, its feed cancel included. -/
theorem test_stop_replaces_stop :
    placeIn [station.stopFrame 0 true] (station.stopFrame 0 false) = [station.stopFrame 0 false] := by decide +kernel

/-- R166, R170 and R175: the overflow of a broadcast READ_STATUS with clear is answered and cleared, and RING stays clear. -/
theorem test_broadcast_clear :
    after (exec (.frameArrival readStatusAll.bytes) { forwarding 4 with
        notices := { enables := { ring := true } }, ring := { (forwarding 4).ring with cc := 9 } })
      (fun t => t.ring.counters = {} && t.notices = { enables := { ring := true } } &&
        (t.ring.general.map fun f => f.payload.take 7) = [[1, 0x0E, 0, 0, 0, 0, 1]]) = true := by decide +kernel

/-- R32, R33: the head that waits is bound to the entry a fetch leaves, and its class is fetched into it. -/
theorem test_wait_list_retry :
    after (exec (.fetchTimerExpiry 3) waiting) (fun t => t.cache.wait = [] &&
      (t.ctxAt 0).binding = some { entry := 3, variant := 0 } && (t.entryAt 3).body = .fetching 0x10 100) = true := by
  decide +kernel

/-- R152: a strap of all zeros or all ones gives address 1; the interlock is the level of ILK. -/
theorem test_device_reset :
    after (exec .deviceReset soaking) (fun t => t.resetHeld && (t.ctxAt 0).state = .disabled && t.carriers = [] &&
      after (exec (.deviceResetEnd 255 true) t) (fun u => u.ring.own = 1 && u.interlock && !u.resetHeld) &&
      after (exec (.deviceResetEnd 77 false) t) (fun u => u.ring.own = 77 && !u.interlock)) = true := by decide +kernel

/-- The tick (log entry 2): after 1 ms the timers of `fetching 1` have run out and their expiry is queued. -/
theorem test_tick : after (step (fetching 1)) (fun t => t.now = 1 && t.pending = [.fetchTimerExpiry 0]) = true := by
  decide +kernel

/-! ### Well-formedness: each check refuses an ill-formed term -/

/-- Source 0 names no node and 255 is broadcast (R156). -/
theorem test_ill_formed_sources :
    ([.identify 0 1 [], .setStation 255 1 [], .setBudget 0 1 [], .setHead 255 1 [], .readHead 0 1 [], .writeSteps 255 1 [],
      .readSteps 0 1 [], .readClass 255 1 [], .flushClass 0 1 [], .halt 255 1 [], .clearFault 0 1 [], .readRecords 255 1 [],
      .setNotices 0 1 [], .readStatus 255 1 [], .resetStation 0 1 [], .unknownRequest 255 1 [], .carrier 0 1 [],
      .release 255 1 [], .classload 0 1 [], .sample 255 [], .dstat 0 [], .purgeOk 255 7, .purgeLost 0 7] : List Instr).all
      (fun c => !c.wellFormed) = true := by decide +kernel

/-- A request body longer than 511 bytes and a payload longer than 512 fit no frame (R153). -/
theorem test_ill_formed_lengths :
    ([.identify 2 1, .setStation 2 1, .setBudget 2 1, .setHead 2 1, .readHead 2 1, .writeSteps 2 1, .readSteps 2 1,
      .readClass 2 1, .flushClass 2 1, .halt 2 1, .clearFault 2 1, .readRecords 2 1, .setNotices 2 1, .readStatus 2 1,
      .resetStation 2 1] : List (List Byte → Instr)).all (fun c => !(c (List.replicate 512 0)).wellFormed) = true ∧
    ([.unknownRequest 2 1, .carrier 2 1, .release 2 1, .classload 2 1, .sample 2, .dstat 2] : List (List Byte → Instr)).all
      (fun c => !(c (List.replicate 513 0)).wellFormed) = true := by decide +kernel

/-- An UNKNOWN_REQUEST carries no assigned code (R161); the term is stopped by name. -/
theorem test_ill_formed_unknown :
    (Instr.unknownRequest 2 1 [1]).wellFormed = false ∧ (Instr.unknownRequest 2 1 [15]).wellFormed = false ∧
      exec (.unknownRequest 2 1 [1]) station = .fault .spellsAnotherRow := ⟨by decide, by decide, rfl⟩

end Sys2Proof.Tests
end

section
/-! The time base (log entry 2): what the tick leaves of each block, and which expiries it queues. -/

namespace Sys2Proof.Machine

/-- The queue a rank gives holds the commands ranked, and no other. -/
theorem mem_insertByRank (now : Nat) (c d : Instr) (ds : List Instr) :
    c ∈ insertByRank now d ds ↔ c = d ∨ c ∈ ds := by
  induction ds with
  | nil => simp [insertByRank]
  | cons e es ih =>
    unfold insertByRank
    split
    · simp
    · simp only [List.mem_cons, ih]; tauto

theorem mem_orderByRank (now : Nat) (c : Instr) (ds : List Instr) : c ∈ orderByRank now ds ↔ c ∈ ds := by
  induction ds with
  | nil => simp [orderByRank]
  | cons d ds ih => simp [orderByRank, mem_insertByRank, ih]

@[simp] theorem State.elapse_ctxAt (s : State) (h : Head) : s.elapse.ctxAt h = (s.ctxAt h).elapse := by
  simp [State.elapse, State.ctxAt]

@[simp] theorem State.elapse_intakeAt (s : State) (h : Head) :
    s.elapse.intakeAt h = { s.intakeAt h with staleTimer := countDown (s.intakeAt h).staleTimer } := by
  simp [State.elapse, State.intakeAt]

@[simp] theorem State.elapse_entryAt (s : State) (e : EntryIx) : s.elapse.entryAt e = (s.entryAt e).elapse := by
  simp [State.elapse, State.entryAt]

@[simp] theorem HeadCtx.elapse_state (c : HeadCtx) : c.elapse.state = c.state := by
  unfold HeadCtx.elapse; split <;> rfl

@[simp] theorem HeadCtx.elapse_settle (c : HeadCtx) : c.elapse.settle = countDown c.settle := by
  unfold HeadCtx.elapse; split <;> rfl

/-- The commands one head brings to the queue (R58, R68, R96). -/
theorem State.mem_headExpiries (s : State) (h : Head) (c : Instr) :
    c ∈ s.headExpiries h ↔
      (c = .stalenessExpiry h ∧ (s.ctxAt h).state = .heating ∧ (s.intakeAt h).staleTimer = some 0) ∨
      (c = .dwellExpiry h ∧ (s.ctxAt h).state = .heating ∧ (s.ctxAt h).stepTimer = some 0 ∧
        (s.runningKind h = some .soak ∨ s.runningKind h = some .hold)) ∨
      (c = .stepTimeout h ∧ (s.ctxAt h).state = .heating ∧ (s.ctxAt h).stepTimer = some 0 ∧
        s.runningKind h ≠ some .soak ∧ s.runningKind h ≠ some .hold) ∨
      (c = .settleTimerExpiry h ∧ (s.ctxAt h).settle = some 0) := by
  have timer : c = s.stepExpiry h ↔
      (c = .dwellExpiry h ∧ (s.runningKind h = some .soak ∨ s.runningKind h = some .hold)) ∨
      (c = .stepTimeout h ∧ s.runningKind h ≠ some .soak ∧ s.runningKind h ≠ some .hold) := by
    unfold State.stepExpiry
    split <;> simp_all
  simp only [State.headExpiries, List.mem_append, List.mem_ite_nil_right, List.mem_singleton, timer]
  tauto

/-- The commands one cache entry brings to the queue (R31, R35). -/
theorem State.mem_entryExpiries (s : State) (e : EntryIx) (c : Instr) :
    c ∈ s.entryExpiries e ↔ c = .fetchTimerExpiry e ∧ ∃ tag, (s.entryAt e).body = .fetching tag 0 := by
  unfold State.entryExpiries
  split
  · next tag hb => simp [hb]
  · next hb => simpa using fun _ tag htag => hb tag htag

theorem mem_allEntries (e : EntryIx) : e ∈ allEntries := by revert e; decide

/-- Settles O2: each block after the tick, and the membership of the queue from the expiries due. -/
theorem emptyQueuePassesTime : Obligations.EmptyQueuePassesTime := by
  intro s hs
  have queue : s.tick.pending = orderByRank s.elapse.now s.elapse.expiries := by
    simp [State.tick, State.elapse, hs]
  refine ⟨s.tick, by simp [step, hs], rfl, fun h => ?_, fun h => ?_, fun h hh => ?_, fun h hh => ?_, fun e tag n he => ?_,
    fun c => ?_, rfl, rfl, rfl, rfl, rfl, rfl, rfl, rfl⟩
  · exact (congrArg HeadCtx.settle (s.elapse_ctxAt h)).trans (HeadCtx.elapse_settle _)
  · exact congrArg Intake.staleTimer (s.elapse_intakeAt h)
  · have ctx : s.tick.ctxAt h = (s.ctxAt h).elapse := s.elapse_ctxAt h
    simp [ctx, HeadCtx.elapse, hh, countDown]
  · have ctx : s.tick.ctxAt h = (s.ctxAt h).elapse := s.elapse_ctxAt h
    simp [ctx, HeadCtx.elapse, hh]
  · have entry : s.tick.entryAt e = (s.entryAt e).elapse := s.elapse_entryAt e
    simp [entry, Entry.elapse, he]
  · rw [queue, mem_orderByRank]
    simp only [State.expiries, List.mem_append, List.mem_flatMap, mem_allHeads, mem_allEntries, true_and,
      State.mem_headExpiries, State.mem_entryExpiries, exists_or, or_assoc, ← exists_and_left]
    rfl

end Sys2Proof.Machine
end

section
/-! The two resets of the part itself (R88, R152), and what no command does while device reset holds. -/

namespace Sys2Proof.Machine

/-- Settles O6: the state after reset passes the computable check of the laws. -/
theorem resetIsLawful : Obligations.ResetIsLawful :=
  ⟨State.lawful_of_check (by decide +kernel), by decide +kernel, by decide +kernel⟩

/-- The work of a row: what it makes of a state where device reset is not in force. -/
theorem takeRow_takes (c : Instr)
    (hc : ∀ src tag payload, c = .unknownRequest src tag payload → unassignedPayload payload = true) :
    ∃ f : State → State, ∀ s, takeRow c s = takes f s := by
  have still : ∃ f : State → State, ∀ s, (.next s : Result) = takes f s := ⟨id, fun s => by
    simp [takes, State.live]⟩
  cases c
  case unknownRequest src tag payload =>
    exact ⟨_, fun s => show execUnknownRequest src tag payload s = _ by
      rw [execUnknownRequest, if_pos (hc src tag payload rfl)]⟩
  case frameArrival | ringOutSend | interlockOpening | interlockClosing | deviceReset | deviceResetEnd
      | stalenessExpiry | dwellExpiry | stepTimeout | fetchTimerExpiry | settleTimerExpiry | service => exact still
  all_goals exact ⟨_, fun s => rfl⟩

/-- No frame reads as a row whose code is assigned to another (R161). -/
theorem commandOf_unassigned {f : Frame} {c : Instr} (hf : commandOf f = some c) :
    ∀ src tag payload, c = .unknownRequest src tag payload → unassignedPayload payload = true := by
  rintro src tag payload rfl
  unfold commandOf at hf
  split at hf <;> try (simp at hf; done)
  · simp only [Option.some.injEq] at hf
    unfold requestOf at hf
    split at hf
    · injection hf with _ _ hp; subst hp; rfl
    · next code body hp =>
      split at hf <;> try (simp at hf; done)
      injection hf with _ _ hq
      subst hq
      simp only [unassignedPayload, assignedCode, Bool.not_eq_true', Bool.and_eq_false_iff, decide_eq_false_iff_not]
      have := code.isLt
      by_contra hcon
      have hn : 1 ≤ code.toNat ∧ code.toNat ≤ 15 := by omega
      obtain ⟨h1, h2⟩ := hn
      interval_cases code.toNat <;> simp_all
  · unfold purgeOf at hf
    split at hf
    · split at hf <;> simp at hf
    · simp at hf

/-- A consumed frame is taken as some work of the part (R156). -/
theorem consume_takes (f : Frame) : ∃ g : State → State, ∀ s, consume f s = takes g s := by
  unfold consume
  cases hf : commandOf f with
  | some c => exact takeRow_takes c (commandOf_unassigned hf)
  | none => exact ⟨_, fun s => rfl⟩

/-- While device reset holds no arriving frame has an effect (R88). -/
theorem execFrameArrival_held {s : State} (h : s.resetHeld = true) (bytes : List Byte) :
    execFrameArrival bytes s = .next s := by
  have consumed (f : Frame) : consume f s = .next s := by
    obtain ⟨g, hg⟩ := consume_takes f
    rw [hg, takes_held h]
  unfold execFrameArrival
  split
  · exact takes_held h _
  · rfl
  · exact consumed _
  · split
    · rw [State.live, if_pos h]; exact consumed _
    · exact takes_held h _
  · exact takes_held h _

/-- Settles O5: the [POR] values by evaluation, and each command by the hold of device reset. -/
theorem deviceResetClears : Obligations.DeviceResetClears := by
  refine ⟨fun s => ⟨s.deviceReset, rfl, rfl, rfl, fun a => rfl, ?_, rfl, rfl, rfl, ?_, ?_, ?_, rfl, rfl, rfl, ?_, rfl, rfl, rfl,
      rfl, rfl, rfl, rfl, rfl, rfl, rfl, rfl, rfl, rfl, rfl⟩, fun s strap ilk => rfl, fun c s hs hc hr he => ?_⟩
  · intro e; simp [State.deviceReset, State.reset, State.entryAt, Entry.atReset]
  · intro h; simp [State.deviceReset, State.reset, State.configAt]
  · intro h; simp [State.deviceReset, State.reset, State.ctxAt]
  · intro h; simp [State.deviceReset, State.reset, State.intakeAt]
  · intro h; simp [State.deviceReset, State.reset, State.rowAt]
  · cases c
    case deviceReset => exact absurd rfl hr
    case deviceResetEnd strap ilk => exact absurd rfl (he strap ilk)
    case frameArrival bytes => exact execFrameArrival_held hs bytes
    case unknownRequest src tag payload =>
      have hp : unassignedPayload payload = true := by simp_all [Instr.wellFormed]
      exact (show execUnknownRequest src tag payload s = _ by
        rw [execUnknownRequest, if_pos hp]; exact takes_held hs _)
    case interlockOpening => exact takes_held (s := s.setIlk false) hs _
    case interlockClosing => exact takes_held (s := s.setIlk true) hs _
    all_goals exact takes_held hs _

end Sys2Proof.Machine
end

section
/-! What each command leaves of the Step Store: all but WRITE_STEPS and device reset leave it as it is (R1, R20). -/

namespace Sys2Proof.Machine

variable (s : State)

/-! ### The store through the base -/

theorem State.store_of_base {s t : State} (h : t.base = s.base) : t.store = s.store := congrArg Base.store h

@[simp] theorem State.report_store : s.report.store = s.store := State.store_of_base s.report_base

theorem consumed_store {src : Byte} {work : State → State} (hw : (work s).store = s.store) :
    (consumed src work s).store = s.store := by
  unfold consumed
  split
  · exact hw
  · exact State.store_of_base (by simp)

/-- An answered frame changes the store as its work does, or not at all. -/
theorem answered_store (kind code : Nat) (src tag : Byte) (work : State → Answer) :
    (answered kind code src tag work s).store = s.store ∨
      (answered kind code src tag work s).store = (work s.reserving).state.store := by
  unfold answered consumed
  split
  · dsimp only
    split
    · exact .inr (State.store_of_base (s := (work s.reserving).state) (by simp [State.reserving]))
    · exact .inl (State.store_of_base (by simp))
  · exact .inl (State.store_of_base (by simp))

/-- A taken command whose work leaves the store leaves it. -/
theorem takes_store {s t : State} {f : State → State} (hf : (f s).store = s.store) (h : takes f s = .next t) :
    t.store = s.store := by
  unfold takes State.live at h
  split at h <;> cases h
  · rfl
  · exact hf

theorem takes_answered_store {s t : State} {kind code : Nat} {src tag : Byte} {work : State → Answer}
    (hw : ∀ u : State, (work u).state.store = u.store) (h : takes (answered kind code src tag work) s = .next t) :
    t.store = s.store :=
  takes_store ((answered_store s kind code src tag work).elim id fun e => e.trans (hw _)) h

/-! ### The work of each request -/

@[simp] theorem Answer.refuse_state (st : Status) : (Answer.refuse s st).state = s := rfl
@[simp] theorem Answer.ok_state (items : List Byte) : (Answer.ok s items).state = s := rfl

@[simp] theorem invalidateAll_base (es : List EntryIx) : (invalidateAll es s).base = s.base := by
  induction es generalizing s with
  | nil => rfl
  | cons e es ih => simp [invalidateAll, ih]

@[simp] theorem dropBindings_base (hs : List Head) : (dropBindings hs s).base = s.base := by
  induction hs generalizing s with
  | nil => rfl
  | cons h hs ih => simp [dropBindings, ih]

@[simp] theorem faultUnavailable_base (hs : List Head) : (faultUnavailable hs s).base = s.base := by
  induction hs generalizing s with
  | nil => rfl
  | cons h hs ih => simp [faultUnavailable, ih]

@[simp] theorem State.expireFetch_base (e : EntryIx) : (s.expireFetch e).base = s.base := by simp [State.expireFetch]

@[simp] theorem State.flush_base (es : List EntryIx) : (s.flush es).state.base = s.base := by simp [State.flush]

theorem classloadWork_base (p : List Byte) : (classloadWork p s).state.base = s.base := by
  unfold classloadWork
  split
  · rfl
  · split <;> simp

theorem flushClassWork_base (p : List Byte) : (flushClassWork p s).state.base = s.base := by
  unfold flushClassWork
  split
  · rfl
  · split <;> simp

theorem readClassWork_base (p : List Byte) : (readClassWork p s).state.base = s.base := by
  unfold readClassWork
  split
  · rfl
  · split
    · split <;> rfl
    all_goals rfl

@[simp] theorem State.placeAssignment_base (h : Head) (a : Assignment) : (s.placeAssignment h a).base = s.base := by
  unfold State.placeAssignment
  split
  · simp
  · split <;> rfl

@[simp] theorem placeAssignments_base (as : List (Head × Assignment)) : (placeAssignments as s).base = s.base := by
  induction as generalizing s with
  | nil => rfl
  | cons a as ih => simp [placeAssignments, ih]

theorem State.takeCarrier_base (id : CarrierId) (as : List (Head × Assignment)) : (s.takeCarrier id as).base = s.base := by
  unfold State.takeCarrier
  split
  · rfl
  · simp; rfl

theorem carrierWork_base (p : List Byte) : (carrierWork p s).state.base = s.base := by
  unfold carrierWork
  dsimp only
  split
  · rfl
  · split
    · rfl
    · split
      · rfl
      · exact s.takeCarrier_base _ _

@[simp] theorem State.mapReqs_base (p : Assignment → Bool) (f : Requirements → Requirements) :
    (s.mapReqs p f).base = s.base := rfl

@[simp] theorem State.startsDone_base : s.startsDone.base = s.base := by simp [State.startsDone]

@[simp] theorem State.releaseCarrier_base (id : CarrierId) : (s.releaseCarrier id).base = s.base := by
  simp [State.releaseCarrier]

theorem releaseWork_base (p : List Byte) : (releaseWork p s).state.base = s.base := by
  unfold releaseWork
  split
  · rfl
  · split
    · rfl
    · split <;> simp

@[simp] theorem endCycles_base (o : CycleOutcome) (hs : List Head) : (endCycles o hs s).base = s.base := by
  induction hs generalizing s with
  | nil => rfl
  | cons h hs ih => simp [endCycles, ih]

theorem State.purgeOk_base (id : CarrierId) : (s.purgeOk id).base = s.base := by
  unfold State.purgeOk; split <;> simp [State.setPurge]

theorem State.purgeLost_base (id : CarrierId) : (s.purgeLost id).base = s.base := by
  unfold State.purgeLost; split <;> simp [State.setPurge]

@[simp] theorem State.haltArming_base (h : Head) (d : Bool) : (s.haltArming h d).base = s.base := by
  unfold State.haltArming; dsimp only; split <;> simp

@[simp] theorem State.haltHead_base (h : Head) (d : Bool) : (s.haltHead h d).base = s.base := by
  unfold State.haltHead; split <;> simp

@[simp] theorem State.haltOne_base (h : Head) (d : Bool) : (s.haltOne h d).base = s.base := by
  unfold State.haltOne; split <;> simp

@[simp] theorem haltHeads_base (d : Bool) (hs : List Head) : (haltHeads d hs s).state.base = s.base := by
  induction hs generalizing s with
  | nil => rfl
  | cons h hs ih => simp [haltHeads, ih]

theorem haltWork_base (p : List Byte) : (haltWork p s).state.base = s.base := by
  unfold haltWork
  dsimp only
  split
  · rfl
  · split
    · simp
    · split <;> simp

@[simp] theorem State.clearFault_base (h : Head) : (s.clearFault h).base = s.base := by
  unfold State.clearFault; dsimp only; split <;> simp

theorem clearFaultWork_base (p : List Byte) : (clearFaultWork p s).state.base = s.base := by
  unfold clearFaultWork
  split
  · rfl
  · split
    · dsimp only; split <;> simp
    · rfl

@[simp] theorem startDeferring_base (n : Nat) (ds : List Deferred) : (startDeferring n s ds).state.base = s.base := by
  induction n generalizing s ds with
  | zero => rfl
  | succ n ih => unfold startDeferring; split <;> simp [ih]

@[simp] theorem State.enterHeld_base (h : Head) (r : JointRecord) : (s.enterHeld h r).base = s.base := by
  unfold State.enterHeld; dsimp only; split <;> simp

@[simp] theorem State.enterCarrier_base (c : CarrierEntry) : (s.enterCarrier c).base = s.base := rfl

@[simp] theorem refill_base (n : Nat) (ds : List Deferred) : (refill n s ds).state.base = s.base := by
  induction n generalizing s ds with
  | zero => rfl
  | succ n ih =>
    unfold refill
    split
    · split
      · simp [ih]
      · split <;> simp [ih]
    · rfl

@[simp] theorem terminateDeferred_base (ds : List Deferred) : (terminateDeferred ds s).base = s.base := by
  induction ds generalizing s with
  | nil => rfl
  | cons d ds ih => simp [terminateDeferred, ih]

theorem State.takeRecords_base (n : Nat) : (s.takeRecords n).base = s.base := by
  simp [State.takeRecords]; rfl

theorem readRecordsWork_base (p : List Byte) : (readRecordsWork p s).state.base = s.base := by
  unfold readRecordsWork
  dsimp only
  split
  · rfl
  · split
    · rfl
    · exact s.takeRecords_base _

theorem setNoticesWork_base (p : List Byte) : (setNoticesWork p s).state.base = s.base := by
  unfold setNoticesWork; split <;> simp

theorem readStatusWork_base (p : List Byte) : (readStatusWork p s).state.base = s.base := by
  unfold readStatusWork
  split
  · rfl
  · dsimp only [Answer.ok]; split <;> rfl

theorem identifyWork_state (p : List Byte) : (identifyWork p s).state = s := by
  unfold identifyWork; split <;> rfl

theorem readHeadWork_state (p : List Byte) : (readHeadWork p s).state = s := by
  unfold readHeadWork
  split
  · rfl
  · split <;> rfl

theorem readStepsWork_state (p : List Byte) : (readStepsWork p s).state = s := by
  unfold readStepsWork
  dsimp only
  split
  · rfl
  · split <;> rfl

@[simp] theorem placeStops_base (hs : List Head) : (placeStops hs s).base = s.base := by
  induction hs generalizing s with
  | nil => rfl
  | cons h hs ih => simp [placeStops, ih]

theorem resetStationWork_store (p : List Byte) : (resetStationWork p s).state.store = s.store := by
  unfold resetStationWork
  split
  · rfl
  · exact (State.store_of_base (placeStops_base s _) :)

theorem setBudgetWork_store (p : List Byte) : (setBudgetWork p s).state.store = s.store := by
  unfold setBudgetWork State.applyBudget
  split
  · rfl
  · dsimp only [Answer.ok]
    split
    · rw [State.store_of_base (placeCutFrames_base _ _)]; rfl
    · rfl

theorem setHeadWork_store (p : List Byte) : (setHeadWork p s).state.store = s.store := by
  unfold setHeadWork
  dsimp only
  split
  · rfl
  · split
    · split
      · rfl
      · split <;> rfl
    · rfl

theorem setStationWork_store (p : List Byte) : (setStationWork p s).state.store = s.store := by
  unfold setStationWork
  dsimp only
  split
  · rfl
  · split
    · rfl
    · dsimp only [Answer.ok]
      rw [State.store_of_base (State.announcePending_base _)]; rfl

/-! ### Events and samples -/

@[simp] theorem State.takeSequence_base (h : Head) (q : Byte) : (s.takeSequence h q).base = s.base := rfl

theorem State.takeSample_base (src : Byte) (p : List Byte) : (s.takeSample src p).base = s.base := by
  unfold State.takeSample State.acceptSample State.takeStrong
  dsimp only
  split
  · split
    · rfl
    · split <;> rfl
  · simp

@[simp] theorem State.accountEnergy_base (h : Head) (n : Nat) : (s.accountEnergy h n).base = s.base := by
  unfold State.accountEnergy; split <;> rfl

@[simp] theorem State.takeFeedCounter_base (h : Head) (n : Byte) : (s.takeFeedCounter h n).base = s.base := by
  unfold State.takeFeedCounter
  dsimp only
  split
  · split
    · rfl
    · split <;> simp
  · rfl

theorem State.takeDstat_base (src : Byte) (p : List Byte) : (s.takeDstat src p).base = s.base := by
  unfold State.takeDstat State.acceptDstat
  split
  · dsimp only
    split <;> simp
  · simp

theorem State.takeService_store : s.takeService.store = s.store := by
  unfold State.takeService
  split
  · rfl
  · rw [State.store_of_base (State.serveHead_base _ _ _)]; rfl

theorem State.openInterlock_store : s.openInterlock.store = s.store := by
  unfold State.openInterlock
  exact State.store_of_base (s := s.setInterlock false) (by simp)

theorem State.closeInterlock_store : s.closeInterlock.store = s.store := by
  unfold State.closeInterlock
  exact State.store_of_base (s := s.setInterlock true) (by simp)

theorem State.offerForward_base (bytes : List Byte) : (s.offerForward bytes).base = s.base := by
  unfold State.offerForward; split <;> simp

theorem event_store {s t : State} {work : State → State} (hw : (work s).store = s.store)
    (h : event work s = .next t) : t.store = s.store :=
  takes_store (f := fun s => (work s).report) (by simpa using hw) h

/-! ### The writes of WRITE_STEPS (R20) -/

/-- What WRITE_STEPS makes of the store: nothing, or the clamped words at a run of addresses inside the store, none of them
in a locked page. -/
def State.RunWritten (s t : State) : Prop :=
  ∃ (start : Nat) (ws : List StepWord), start + ws.length ≤ Config.stepWords ∧ ws.length ≤ 16 ∧ 1 ≤ ws.length ∧
    s.runLocked start ws.length = false ∧ t.store = s.store.writeMany start (ws.map clampStep)

theorem stepWordsAt_length (p : List Byte) (i n : Nat) : (stepWordsAt p i n).length = n := by
  induction n generalizing i with
  | zero => rfl
  | succ n ih => simp [stepWordsAt, ih]

theorem writeStepsWork_store (p : List Byte) :
    (writeStepsWork p s).state.store = s.store ∨ s.RunWritten (writeStepsWork p s).state := by
  unfold writeStepsWork
  dsimp only
  split
  · exact .inl rfl
  · next hl =>
    split
    · exact .inl rfl
    · next hr =>
      split
      · exact .inl rfl
      · next hk =>
        refine .inr ⟨u16At p 1, stepWordsAt p 4 (u8At p 3), ?_, ?_, ?_, ?_, rfl⟩ <;> rw [stepWordsAt_length]
        · show _ ≤ 1024; omega
        · omega
        · omega
        · simpa using hk

/-- A row other than WRITE_STEPS leaves the store; WRITE_STEPS leaves it or writes a run. -/
theorem takeRow_store {c : Instr} {s t : State} (h : takeRow c s = .next t) :
    t.store = s.store ∨ ((∃ src tag body, c = .writeSteps src tag body) ∧ s.RunWritten t) := by
  cases c
  case writeSteps src tag body =>
    replace h : takes (answered 0x01 0x06 src tag (writeStepsWork (BitVec.ofNat 8 0x06 :: body))) s = .next t := h
    by_cases hs : s.resetHeld = true
    · rw [takes_held hs] at h; cases h; exact .inl rfl
    · rw [takes_free (by simpa using hs)] at h
      cases h
      rcases answered_store s 0x01 0x06 src tag (writeStepsWork (BitVec.ofNat 8 0x06 :: body)) with e | e
      · exact .inl e
      · rcases writeStepsWork_store s.reserving (BitVec.ofNat 8 0x06 :: body) with e' | ⟨start, ws, h1, h2, h3, h4, h5⟩
        · exact .inl (e.trans e')
        · exact .inr ⟨⟨_, _, _, rfl⟩, start, ws, h1, h2, h3, h4, e.trans h5⟩
  case unknownRequest src tag payload =>
    replace h : execUnknownRequest src tag payload s = .next t := h
    unfold execUnknownRequest at h
    split at h
    · exact .inl (takes_answered_store (fun _ => rfl) h)
    · cases h
  case frameArrival | ringOutSend | interlockOpening | interlockClosing | deviceReset | deviceResetEnd
      | stalenessExpiry | dwellExpiry | stepTimeout | fetchTimerExpiry | settleTimerExpiry | service =>
    cases h; exact .inl rfl
  case sample => exact .inl (takes_store (consumed_store _ (by simpa using State.store_of_base (s.takeSample_base _ _))) h)
  case dstat => exact .inl (takes_store (consumed_store _ (by simpa using State.store_of_base (s.takeDstat_base _ _))) h)
  case purgeOk => exact .inl (takes_store (consumed_store _ (by simpa using State.store_of_base (s.purgeOk_base _))) h)
  case purgeLost => exact .inl (takes_store (consumed_store _ (by simpa using State.store_of_base (s.purgeLost_base _))) h)
  case identify => exact .inl (takes_answered_store (fun u => by rw [identifyWork_state]) h)
  case setStation => exact .inl (takes_answered_store (fun u => setStationWork_store u _) h)
  case setBudget => exact .inl (takes_answered_store (fun u => setBudgetWork_store u _) h)
  case setHead => exact .inl (takes_answered_store (fun u => setHeadWork_store u _) h)
  case readHead => exact .inl (takes_answered_store (fun u => by rw [readHeadWork_state]) h)
  case readSteps => exact .inl (takes_answered_store (fun u => by rw [readStepsWork_state]) h)
  case readClass => exact .inl (takes_answered_store (fun u => State.store_of_base (readClassWork_base u _)) h)
  case flushClass => exact .inl (takes_answered_store (fun u => State.store_of_base (flushClassWork_base u _)) h)
  case halt => exact .inl (takes_answered_store (fun u => State.store_of_base (haltWork_base u _)) h)
  case clearFault => exact .inl (takes_answered_store (fun u => State.store_of_base (clearFaultWork_base u _)) h)
  case readRecords => exact .inl (takes_answered_store (fun u => State.store_of_base (readRecordsWork_base u _)) h)
  case setNotices => exact .inl (takes_answered_store (fun u => State.store_of_base (setNoticesWork_base u _)) h)
  case readStatus => exact .inl (takes_answered_store (fun u => State.store_of_base (readStatusWork_base u _)) h)
  case resetStation => exact .inl (takes_answered_store (fun u => resetStationWork_store u _) h)
  case carrier => exact .inl (takes_answered_store (fun u => State.store_of_base (carrierWork_base u _)) h)
  case release => exact .inl (takes_answered_store (fun u => State.store_of_base (releaseWork_base u _)) h)
  case classload => exact .inl (takes_answered_store (fun u => State.store_of_base (classloadWork_base u _)) h)

theorem consume_store {f : Frame} {s t : State} (h : consume f s = .next t) : t.store = s.store ∨ s.RunWritten t := by
  unfold consume at h
  split at h
  · exact (takeRow_store h).imp_right And.right
  · exact .inl (takes_store (State.store_of_base (by simp)) h)

/-- A run written beside states that agree on store and cache is the same run. -/
theorem State.RunWritten.of_offer {s t : State} {bytes : List Byte} (h : (s.offerForward bytes).RunWritten t) :
    s.RunWritten t := by
  have cache : (s.offerForward bytes).cache = s.cache := by
    unfold State.offerForward State.raiseOverflow State.raise
    dsimp only
    split
    · rfl
    · split <;> rfl
  obtain ⟨start, ws, h1, h2, h3, h4, h5⟩ := h
  refine ⟨start, ws, h1, h2, h3, ?_, h5.trans ?_⟩
  · simpa only [State.runLocked, State.pageLocked, State.entryAt, cache] using h4
  · rw [State.store_of_base (s.offerForward_base bytes)]

theorem execFrameArrival_store {bytes : List Byte} {s t : State} (h : execFrameArrival bytes s = .next t) :
    t.store = s.store ∨ s.RunWritten t := by
  unfold execFrameArrival at h
  split at h
  · exact .inl (event_store (State.store_of_base (by simp)) h)
  · cases h; exact .inl rfl
  · exact consume_store h
  · split at h
    · by_cases hs : s.resetHeld = true
      · rw [State.live, if_pos hs] at h
        exact consume_store h
      · rw [State.live, if_neg hs] at h
        rcases consume_store h with e | e
        · exact .inl (e.trans (State.store_of_base (s.offerForward_base bytes)))
        · exact .inr e.of_offer
    · exact .inl (event_store (State.store_of_base (s.offerForward_base bytes)) h)
  · exact .inl (event_store (State.store_of_base (s.offerForward_base bytes)) h)

/-! ### Expiries -/

theorem execStalenessExpiry_store {i : Head} {s t : State} (h : execStalenessExpiry i s = .next t) :
    t.store = s.store := by
  refine event_store ?_ h
  split
  · exact State.store_of_base (by simp)
  · rfl

theorem execDwellExpiry_store {i : Head} {s t : State} (h : execDwellExpiry i s = .next t) : t.store = s.store := by
  refine event_store ?_ h
  split
  · exact State.store_of_base (by simp)
  · rfl

theorem execStepTimeout_store {i : Head} {s t : State} (h : execStepTimeout i s = .next t) : t.store = s.store := by
  refine event_store ?_ h
  split
  · split
    · exact State.store_of_base (by simp)
    · rfl
  · rfl

theorem execSettleTimerExpiry_store {i : Head} {s t : State} (h : execSettleTimerExpiry i s = .next t) :
    t.store = s.store := by
  refine event_store ?_ h
  split
  · exact State.store_of_base (by simp [State.settleDone])
  · rfl

theorem execFetchTimerExpiry_store {e : EntryIx} {s t : State} (h : execFetchTimerExpiry e s = .next t) :
    t.store = s.store := by
  refine event_store ?_ h
  split
  · exact State.store_of_base (by simp)
  · rfl

theorem execDeviceResetEnd_store {strap : Byte} {ilk : Bool} {s t : State}
    (h : execDeviceResetEnd strap ilk s = .next t) : t.store = s.store := by
  unfold execDeviceResetEnd at h
  cases h
  split <;> rfl

/-- Every command but DEVICE_RESET leaves the store or, where it is WRITE_STEPS or a frame, writes a run of words. -/
theorem exec_store {c : Instr} {s t : State} (h : exec c s = .next t) (hc : c ≠ .deviceReset) :
    t.store = s.store ∨
      (((∃ src tag body, c = .writeSteps src tag body) ∨ ∃ bytes, c = .frameArrival bytes) ∧ s.RunWritten t) := by
  cases c
  case deviceReset => exact absurd rfl hc
  case frameArrival bytes => exact (execFrameArrival_store h).imp_right fun r => ⟨.inr ⟨_, rfl⟩, r⟩
  case ringOutSend => exact .inl (takes_store (f := fun s => s.modRing RingPort.send) rfl h)
  case interlockOpening =>
    exact .inl (event_store (s := s.setIlk false) (State.openInterlock_store _) h)
  case interlockClosing =>
    exact .inl (event_store (s := s.setIlk true) (State.closeInterlock_store _) h)
  case deviceResetEnd strap ilk => exact .inl (execDeviceResetEnd_store h)
  case stalenessExpiry i => exact .inl (execStalenessExpiry_store h)
  case dwellExpiry i => exact .inl (execDwellExpiry_store h)
  case stepTimeout i => exact .inl (execStepTimeout_store h)
  case settleTimerExpiry i => exact .inl (execSettleTimerExpiry_store h)
  case fetchTimerExpiry e => exact .inl (execFetchTimerExpiry_store h)
  case service => exact .inl (event_store s.takeService_store h)
  all_goals exact (takeRow_store (by exact h)).imp_right fun r => ⟨.inl r.1, r.2⟩

/-! ### The form of the store (R1, R3) -/

theorem clampParam_of_code {w v : StepWord} (hc : v.code = w.code) (hp : v.param = clampParam w) :
    clampParam v = v.param := by
  have hk : v.kind? = w.kind? := congrArg kindOf hc
  unfold clampParam at hp ⊢
  rw [hk]
  split at hp
  · split at hp <;> split <;> omega
  all_goals omega

/-- Clamped words stay as they are (R3). -/
theorem clampStep_idem (w : StepWord) : clampStep (clampStep w) = clampStep w := by
  have hp : clampParam (clampStep w) = (clampStep w).param := clampParam_of_code (w := w) rfl rfl
  rw [clampStep, hp]
  simp [clampStep]

/-- A run of clamped words inside the store keeps its form. -/
theorem StepStore.writeMany_sound (ws : List StepWord) {m : StepStore} (a : Nat)
    (hm : ∀ p ∈ m, p.1 < Config.stepWords ∧ clampStep p.2 = p.2) (ha : a + ws.length ≤ Config.stepWords) :
    ∀ p ∈ StepStore.writeMany m a (ws.map clampStep), p.1 < Config.stepWords ∧ clampStep p.2 = p.2 := by
  induction ws generalizing m a with
  | nil => exact hm
  | cons w ws ih =>
    simp only [List.length_cons] at ha
    refine ih (a + 1) (fun p hp => ?_) (by omega)
    rcases StepStore.mem_write hp with hp | rfl
    · exact hm p hp
    · exact ⟨by show a < _; omega, clampStep_idem w⟩

theorem State.RunWritten.sound {s t : State} (h : s.RunWritten t) (hs : s.StoreSound) : t.StoreSound := by
  obtain ⟨start, ws, hin, -, -, -, ht⟩ := h
  rw [State.StoreSound, ht]
  exact ⟨StepStore.writeMany_wf _ _ hs.1, StepStore.writeMany_sound ws start hs.2 hin⟩

theorem exec_storeSound {c : Instr} {s t : State} (hs : s.StoreSound) (h : exec c s = .next t) : t.StoreSound := by
  by_cases hc : c = .deviceReset
  · subst hc
    cases h
    exact ⟨rfl, by simp [State.deviceReset, State.reset]⟩
  · rcases exec_store h hc with e | ⟨-, e⟩
    · rw [State.StoreSound, e]; exact hs
    · exact e.sound hs

theorem step_storeSound {s t : State} (hs : s.StoreSound) (h : step s = .next t) : t.StoreSound := by
  unfold step at h
  split at h
  · next c rest _ => exact exec_storeSound (s := { s with pending := rest }) hs h
  · cases h; exact hs

/-- Settles O14: the form by the runs that WRITE_STEPS writes, the rest by each command's own work. -/
theorem storeKept : Obligations.StoreKept := by
  refine ⟨fun s t hs h => step_storeSound hs h, fun c s t h hr hw hf => ?_⟩
  rcases exec_store h hr with e | ⟨⟨src, tag, body, rfl⟩ | ⟨bytes, rfl⟩, -⟩
  · exact e
  · exact absurd rfl (hw src tag body)
  · exact absurd rfl (hf bytes)

/-! ### Locked pages (R19, R20) -/

/-- A write leaves every other address, in whatever form the list is. -/
theorem StepStore.read_write_of_ne (m : StepStore) {a b : Nat} (w : StepWord) (hb : b ≠ a) :
    StepStore.read (StepStore.write m a w) b = StepStore.read m b := by
  induction m with
  | nil => unfold StepStore.write; split <;> simp [StepStore.read, hb]
  | cons p m ih =>
    obtain ⟨c, v⟩ := p
    unfold StepStore.write
    split
    · split <;> simp [StepStore.read, hb]
    · split
      · next hac => subst hac; split <;> simp [StepStore.read, hb]
      · simp [StepStore.read, ih]

theorem StepStore.read_writeMany_of_outside (ws : List StepWord) (m : StepStore) {a b : Nat}
    (hb : b < a ∨ a + ws.length ≤ b) : StepStore.read (StepStore.writeMany m a ws) b = StepStore.read m b := by
  induction ws generalizing m a with
  | nil => rfl
  | cons w ws ih =>
    simp only [List.length_cons] at hb
    rw [StepStore.writeMany, ih _ (by omega), StepStore.read_write_of_ne _ _ (by omega)]

/-- An address of a class some head is bound to stands in a locked page (R19). -/
theorem State.pageLocked_of_inRange {s : State} {e : EntryIx} {tag : ClassId} {d : ClassDesc} {a : Nat}
    (hb : (s.entryAt e).body = .resident tag d) (hu : 0 < (s.entryAt e).users) (ha : d.inRange a = true) :
    s.pageLocked (a / 16) = true := by
  simp only [ClassDesc.inRange, Bool.and_eq_true, decide_eq_true_eq] at ha
  refine List.any_eq_true.mpr ⟨e, mem_allEntries e, ?_⟩
  simp only [Entry.locksPage, hb, Bool.and_eq_true, decide_eq_true_eq]
  omega

/-- A run that touches no locked page writes no address of one: it touches at most the pages of its ends (R20). -/
theorem State.RunWritten.read_of_locked {s t : State} (h : s.RunWritten t) {a : Nat}
    (hl : s.pageLocked (a / 16) = true) : t.store.read a = s.store.read a := by
  obtain ⟨start, ws, -, h16, h1, hk, ht⟩ := h
  rw [ht]
  apply StepStore.read_writeMany_of_outside
  rw [List.length_map]
  by_contra hcon
  simp only [State.runLocked, Bool.or_eq_false_iff] at hk
  have page : a / 16 = start / 16 ∨ a / 16 = (start + ws.length - 1) / 16 := by omega
  rcases page with e | e <;> rw [e] at hl <;> simp_all

/-- Settles O30: only runs outside the locked pages are written. -/
theorem lockedPagesKept : Obligations.LockedPagesKept := by
  intro c s t e tag d a h hc hb hu ha
  rcases exec_store h hc with e' | ⟨-, e'⟩
  · rw [e']
  · exact e'.read_of_locked (State.pageLocked_of_inRange hb hu ha)

end Sys2Proof.Machine
end

section
/-! Reading back what was written: bytes, two-byte fields, flags, step words and frames (R2, R153, R167). -/

namespace Sys2Proof

/-! ### Bytes at an offset -/

theorem byteAt_append (a b : List Byte) (i : Nat) : byteAt (a ++ b) (a.length + i) = byteAt b i := by
  simp [byteAt, List.getElem?_append_right]

theorem u8At_append (a b : List Byte) (i : Nat) : u8At (a ++ b) (a.length + i) = u8At b i :=
  congrArg BitVec.toNat (byteAt_append a b i)

theorem u16At_append (a b : List Byte) (i : Nat) : u16At (a ++ b) (a.length + i) = u16At b i := by
  simp only [u16At, Nat.add_assoc, u8At_append]

theorem flagAt_append (a b : List Byte) (i k : Nat) : flagAt (a ++ b) (a.length + i) k = flagAt b i k :=
  congrArg (·.getLsbD k) (byteAt_append a b i)

@[simp] theorem u8At_cons_succ (c : Byte) (p : List Byte) (i : Nat) : u8At (c :: p) (i + 1) = u8At p i := rfl
@[simp] theorem u16At_cons_succ (c : Byte) (p : List Byte) (i : Nat) : u16At (c :: p) (i + 1) = u16At p i := rfl
@[simp] theorem byteAt_cons_zero (c : Byte) (p : List Byte) : byteAt (c :: p) 0 = c := rfl

/-! ### Fields -/

theorem u8At_be8 {n : Nat} (h : n < 256) (after : List Byte) : u8At (be8 n ++ after) 0 = n := by
  simp only [u8At, be8, List.singleton_append, byteAt_cons_zero, BitVec.toNat_ofNat]
  exact Nat.mod_eq_of_lt h

theorem u16At_be16 {n : Nat} (h : n < 65536) (after : List Byte) : u16At (be16 n ++ after) 0 = n := by
  show (BitVec.ofNat 8 (n / 256)).toNat * 256 + (BitVec.ofNat 8 n).toNat = n
  simp only [BitVec.toNat_ofNat]
  omega

theorem id16At_be16 (c : BitVec 16) (after : List Byte) : id16At (be16 c.toNat ++ after) 0 = c := by
  rw [id16At, u16At_be16 c.isLt, BitVec.ofNat_toNat, BitVec.setWidth_eq]

theorem be16_length (n : Nat) : (be16 n).length = 2 := rfl

/-! ### Frames (R153) -/

theorem Frame.body_length (f : Frame) : f.body.length = f.payload.length + 6 := by
  simp [Frame.body, be16_length]; omega

theorem Frame.bytes_length (f : Frame) : f.bytes.length = f.payload.length + 8 := by
  simp [Frame.bytes, Frame.body_length, be16_length]

/-- The declared length of a frame's bytes. -/
theorem Frame.bytes_len {f : Frame} (h : f.payload.length ≤ 512) : u16At f.bytes 4 = f.payload.length := by
  have split : f.bytes = [f.dest, f.src, f.kind, f.tag] ++
      (be16 f.payload.length ++ (f.payload ++ be16 (crc16 f.body).toNat)) := by
    simp [Frame.bytes, Frame.body]
  rw [split, show (4 : Nat) = [f.dest, f.src, f.kind, f.tag].length + 0 from rfl, u16At_append, u16At_be16 (by omega)]

/-- The checks of R153 pass on the bytes of a frame, which read as the frame. -/
theorem parseFrame_bytes {f : Frame} (h : f.payload.length ≤ 512) : parseFrame f.bytes = some f := by
  have body : f.bytes.take (f.payload.length + 6) = f.body := by
    rw [Frame.bytes, ← f.body_length, List.take_left]
  have crc : id16At f.bytes (f.payload.length + 6) = crc16 f.body := by
    have := u16At_append f.body (be16 (crc16 f.body).toNat) 0
    rw [← List.append_nil (be16 _)] at this
    rw [id16At, Frame.bytes, ← f.body_length, ← List.append_nil (be16 _)]
    rw [Nat.add_zero] at this
    rw [this, u16At_be16 (crc16 f.body).isLt, BitVec.ofNat_toNat, BitVec.setWidth_eq]
  have payload : (f.bytes.drop 6).take f.payload.length = f.payload := by
    simp [Frame.bytes, Frame.body, be16]
  simp only [parseFrame, Frame.bytes_len h, body, crc, payload, Frame.bytes_length]
  rw [if_pos ⟨trivial, h, trivial⟩]
  rfl

end Sys2Proof

namespace Sys2Proof.Machine

/-! ### Step words (R2) -/

theorem stepWordBytes_length (w : StepWord) : (stepWordBytes w).length = 14 := rfl

/-- The fields of a step word as its bytes hold them: the codes and flags for every value, the numbers below 65536. -/
theorem stepWordAt_bytes {w : StepWord} (after : List Byte) (ht : w.target < 65536) (hw : w.window < 65536)
    (hp : w.param < 65536) (hl : w.limit < 65536) (hc : w.ceiling < 65536) (hb : w.base < 65536) :
    stepWordAt (stepWordBytes w ++ after) 0 = w := by
  obtain ⟨code, next, cont, wet, tier, target, window, param, limit, ceiling, base⟩ := w
  have first : u8At (stepWordBytes ⟨code, next, cont, wet, tier, target, window, param, limit, ceiling, base⟩ ++ after) 0 =
      code.val + 16 * tier.val := u8At_be8 (by omega) _
  have field : ∀ (n : Nat) (pre post : List Byte), n < 65536 → u16At (pre ++ (be16 n ++ post)) pre.length = n :=
    fun n pre post hn => by
      have := u16At_append pre (be16 n ++ post) 0
      rw [Nat.add_zero] at this
      rw [this, u16At_be16 hn]
  have flags : ∀ k, flagAt (stepWordBytes ⟨code, next, cont, wet, tier, target, window, param, limit, ceiling, base⟩ ++
      after) 1 k = (BitVec.ofNat 8 (flagsNat [next, cont, wet])).getLsbD k := fun k => rfl
  have bits : ∀ a b c : Bool, (BitVec.ofNat 8 (flagsNat [a, b, c])).getLsbD 0 = a ∧
      (BitVec.ofNat 8 (flagsNat [a, b, c])).getLsbD 1 = b ∧ (BitVec.ofNat 8 (flagsNat [a, b, c])).getLsbD 2 = c := by
    decide
  unfold stepWordAt
  congr 1
  · rw [first]; ext; simp only [Fin.ofNat]; omega
  · exact (flags 0).trans (bits next cont wet).1
  · exact (flags 1).trans (bits next cont wet).2.1
  · exact (flags 2).trans (bits next cont wet).2.2
  · rw [first]; ext; simp only [Fin.ofNat]; omega
  · exact field target (be8 (code.val + 16 * tier.val) ++ flagsByte [next, cont, wet]) _ ht
  · exact field window (be8 (code.val + 16 * tier.val) ++ flagsByte [next, cont, wet] ++ be16 target) _ hw
  · exact field param (be8 (code.val + 16 * tier.val) ++ flagsByte [next, cont, wet] ++ be16 target ++ be16 window) _ hp
  · exact field limit (be8 (code.val + 16 * tier.val) ++ flagsByte [next, cont, wet] ++ be16 target ++ be16 window ++
      be16 param) _ hl
  · exact field ceiling (be8 (code.val + 16 * tier.val) ++ flagsByte [next, cont, wet] ++ be16 target ++ be16 window ++
      be16 param ++ be16 limit) _ hc
  · exact field base (be8 (code.val + 16 * tier.val) ++ flagsByte [next, cont, wet] ++ be16 target ++ be16 window ++
      be16 param ++ be16 limit ++ be16 ceiling) _ hb

theorem stepWordAt_append (a b : List Byte) (i : Nat) : stepWordAt (a ++ b) (a.length + i) = stepWordAt b i := by
  simp only [stepWordAt, u8At_append, u16At_append, flagAt_append, Nat.add_assoc]

/-- Settles O15: frames by the checks of R153 on their own bytes, step words field by field. -/
theorem framesReadBack : Obligations.FramesReadBack := by
  refine ⟨fun f hf => ⟨parseFrame_bytes hf, f.bytes_length⟩, fun w before after ht hw hp hl hc hb => ⟨rfl, ?_⟩⟩
  have := stepWordAt_append before (stepWordBytes w ++ after) 0
  rw [Nat.add_zero] at this
  rw [List.append_assoc, this, stepWordAt_bytes after ht hw hp hl hc hb]

/-! ### Runs of step words -/

/-- The two layouts of a step word are one. -/
theorem wordLayout_eq (w : StepWord) : wordLayout w = stepWordBytes w := by
  have flags : ∀ a b c : Bool, [bitsByte [a, b, c]] = flagsByte [a, b, c] := by decide
  simp only [wordLayout, stepWordBytes, ← flags, be8, List.cons_append, List.nil_append, List.append_assoc]

/-- A word whose numbers fit their fields. -/
abbrev StepWord.Fits (w : StepWord) : Prop :=
  w.target < 65536 ∧ w.window < 65536 ∧ w.param < 65536 ∧ w.limit < 65536 ∧ w.ceiling < 65536 ∧ w.base < 65536

/-- A run of step words is read back from its bytes. -/
theorem stepWordsAt_layout (ws : List StepWord) (before : List Byte) (hws : ∀ w ∈ ws, w.Fits) :
    stepWordsAt (before ++ ws.flatMap wordLayout) before.length ws.length = ws := by
  induction ws generalizing before with
  | nil => rfl
  | cons w ws ih =>
    obtain ⟨ht, hw, hp, hl, hc, hb⟩ := hws w (by simp)
    have head := stepWordAt_append before (stepWordBytes w ++ ws.flatMap wordLayout) 0
    have tail := ih (before ++ stepWordBytes w) fun v hv => hws v (by simp [hv])
    rw [Nat.add_zero, stepWordAt_bytes _ ht hw hp hl hc hb] at head
    rw [List.length_append, stepWordBytes_length, List.append_assoc] at tail
    rw [List.flatMap_cons, wordLayout_eq, List.length_cons, stepWordsAt, head, tail]

theorem flatMap_wordLayout_length (ws : List StepWord) : (ws.flatMap wordLayout).length = 14 * ws.length := by
  induction ws with
  | nil => rfl
  | cons w ws ih =>
    rw [List.flatMap_cons, List.length_append, ih, wordLayout_eq, stepWordBytes_length, List.length_cons]; omega

end Sys2Proof.Machine
end

section
/-! Refusals of a wrong length, and the two requests of the Step Store (R20, R22). -/

namespace Sys2Proof.Machine

variable {s : State} {src tag : Byte}

/-- A request refused by its block: only the reply is added (R161). -/
theorem request_refused {code : Nat} (h : s.Takes src) (body : List Byte) (work : List Byte → State → Answer) {st : Status}
    (hw : work (BitVec.ofNat 8 code :: body) s.reserving = .refuse s.reserving st) :
    request code src tag body work s = .next (s.replied src tag (be8 0x01 ++ be8 code ++ be8 (statusCode st))) := by
  rw [request_still h body work hw, List.append_nil]

/-- A frame other than a REQUEST refused by its block. -/
theorem answered_refused {kind : Nat} (h : s.Takes src) (work : State → Answer) {st : Status}
    (hw : work s.reserving = .refuse s.reserving st) :
    takes (answered kind 0x00 src tag work) s =
      .next (s.replied src tag (be8 kind ++ be8 0x00 ++ be8 (statusCode st))) := by
  rw [takes_free h.1.1, answered_still h work (by rw [hw]; rfl), hw]
  simp [Answer.refuse]

theorem writeSteps_length (h : s.Takes src) {body : List Byte}
    (hb : body.length ≠ 3 + 14 * u8At body 2 ∨ u8At body 2 = 0 ∨ 16 < u8At body 2) :
    exec (.writeSteps src tag body) s = .next (s.replied src tag [0x01, 0x06, 0x04]) := by
  refine request_refused (code := 0x06) (st := .length) h body writeStepsWork ?_
  rw [writeStepsWork, if_pos]
  simp only [List.length_cons, u8At_cons_succ]
  omega

theorem readSteps_length (h : s.Takes src) {body : List Byte}
    (hb : body.length ≠ 3 ∨ u8At body 2 = 0 ∨ 16 < u8At body 2) :
    exec (.readSteps src tag body) s = .next (s.replied src tag [0x01, 0x07, 0x04]) := by
  refine request_refused (code := 0x07) (st := .length) h body readStepsWork ?_
  rw [readStepsWork, if_pos]
  simp only [List.length_cons, u8At_cons_succ]
  omega

/-- Settles O22: the length check of each row comes first. -/
theorem wrongLengthsRefused : Obligations.WrongLengthsRefused := by
  intro s src tag body hs
  have cons (c : Byte) {n : Nat} (h : body.length ≠ n) : (c :: body).length ≠ n + 1 := by simpa using h
  refine ⟨fun h => ?_, fun h => ?_, fun h => ?_, fun h => ?_, fun h => ?_, fun h => writeSteps_length hs h,
    fun h => readSteps_length hs h, fun h => ?_, fun h => ?_, fun h => ?_, fun h => ?_, fun h => ?_, fun h => ?_,
    fun h => ?_, fun h => ?_, fun h => ?_, fun h => ?_, fun h => ?_⟩
  · exact request_refused hs body identifyWork (if_pos (cons _ h))
  · exact request_refused hs body setStationWork (if_pos (cons _ h))
  · exact request_refused hs body setBudgetWork (if_pos (cons _ h))
  · refine request_refused hs body setHeadWork (if_pos ?_)
    simp only [List.length_cons, u8At_cons_succ]
    omega
  · exact request_refused hs body readHeadWork (if_pos (cons _ h))
  · exact request_refused hs body readClassWork (if_pos (cons _ h))
  · exact request_refused hs body flushClassWork (if_pos (cons _ h))
  · exact request_refused hs body haltWork (if_pos (cons _ h))
  · exact request_refused hs body clearFaultWork (if_pos (cons _ h))
  · exact request_refused hs body readRecordsWork (if_pos (cons _ h))
  · exact request_refused hs body setNoticesWork (if_pos (cons _ h))
  · exact request_refused hs body readStatusWork (if_pos (cons _ h))
  · exact request_refused hs body resetStationWork (if_pos (cons _ h))
  · refine answered_refused hs (carrierWork body) (if_pos ?_)
    omega
  · exact answered_refused hs (releaseWork body) (if_pos h)
  · refine answered_refused (kind := 0x05) (st := .length) hs (classloadWork body) ?_
    rw [classloadWork, checkLoad, if_pos (by omega)]

/-! ### WRITE_STEPS (R20) -/

/-- A run touches a locked page exactly where some page from its first to its last is locked: it touches at most two. -/
theorem State.runLocked_iff {start count : Nat} (h1 : 1 ≤ count) (h16 : count ≤ 16) :
    s.runLocked start count = true ↔ ∃ e tag d, (s.entryAt e).body = .resident tag d ∧ 0 < (s.entryAt e).users ∧
      ∃ page, start / 16 ≤ page ∧ page ≤ (start + count - 1) / 16 ∧ d.firstPage ≤ page ∧
        page < d.firstPage + d.pageCount := by
  have locks (p : Nat) : s.pageLocked p = true ↔ ∃ e tag d, (s.entryAt e).body = .resident tag d ∧
      0 < (s.entryAt e).users ∧ d.firstPage ≤ p ∧ p < d.firstPage + d.pageCount := by
    simp only [State.pageLocked, List.any_eq_true, mem_allEntries, true_and]
    refine exists_congr fun e => ?_
    unfold Entry.locksPage
    split
    · next tag d hb => simp [hb, and_assoc]
    · next hb => simpa using fun tag d hd => (hb tag d hd).elim
  rw [State.runLocked, Bool.or_eq_true, locks, locks]
  constructor
  · rintro (⟨e, tag, d, hb, hu, h⟩ | ⟨e, tag, d, hb, hu, h⟩)
    · exact ⟨e, tag, d, hb, hu, _, le_rfl, Nat.div_le_div_right (by omega), h⟩
    · exact ⟨e, tag, d, hb, hu, _, Nat.div_le_div_right (by omega), le_rfl, h⟩
  · rintro ⟨e, tag, d, hb, hu, page, hlo, hhi, h⟩
    have : page = start / 16 ∨ page = (start + count - 1) / 16 := by omega
    rcases this with rfl | rfl
    · exact .inl ⟨e, tag, d, hb, hu, h⟩
    · exact .inr ⟨e, tag, d, hb, hu, h⟩

/-- The clamps of R3, with the parameter by the kind code. -/
theorem clampStep_eq (w : StepWord) :
    clampStep w = { w with
      target := min w.target 16000, window := min w.window 1000, ceiling := min w.ceiling 2500, base := min w.base 2500,
      param := if w.code = 1 then max 1 (min w.param 10000)
        else if w.code = 2 ∨ w.code = 3 then min w.param 60000 else w.param } := by
  have kinds : ∀ c : Fin 16, (c = 1 → kindOf c = some .ramp) ∧ (c = 2 → kindOf c = some .soak) ∧
      (c = 3 → kindOf c = some .hold) ∧ (c ≠ 1 ∧ c ≠ 2 ∧ c ≠ 3 → kindOf c ≠ some .ramp ∧ kindOf c ≠ some .soak ∧
        kindOf c ≠ some .hold) := by decide
  obtain ⟨ramp, soak, hold, other⟩ := kinds w.code
  have param : clampParam w = if w.code = 1 then max 1 (min w.param 10000)
      else if w.code = 2 ∨ w.code = 3 then min w.param 60000 else w.param := by
    unfold clampParam StepWord.kind?
    by_cases h1 : w.code = 1
    · rw [ramp h1, if_pos h1]
      show (if w.param = 0 then 1 else min w.param 10000) = _
      split <;> omega
    · rw [if_neg h1]
      by_cases h2 : w.code = 2
      · rw [soak h2]; simp [h2]
      · by_cases h3 : w.code = 3
        · rw [hold h3]; simp [h3]
        · obtain ⟨n1, n2, n3⟩ := other ⟨h1, h2, h3⟩
          simp only [h2, h3, or_self, if_false]
  rw [clampStep, param]

/-- Settles O29: the run is read back from its bytes, and the checks of R20 come in their order. -/
theorem writeStepsWrites : Obligations.WriteStepsWrites := by
  intro s src tag start ws hs hstart h1 h16 hws
  have layout : BitVec.ofNat 8 0x06 :: (be16 start ++ be8 ws.length ++ ws.flatMap wordLayout) =
      ([BitVec.ofNat 8 0x06] ++ be16 start ++ be8 ws.length) ++ ws.flatMap wordLayout := by
    simp
  have first : u16At (BitVec.ofNat 8 0x06 :: (be16 start ++ be8 ws.length ++ ws.flatMap wordLayout)) 1 = start := by
    rw [u16At_cons_succ, List.append_assoc, u16At_be16 hstart]
  have count : u8At (BitVec.ofNat 8 0x06 :: (be16 start ++ be8 ws.length ++ ws.flatMap wordLayout)) 3 = ws.length := by
    rw [u8At_cons_succ, List.append_assoc, show (2 : Nat) = (be16 start).length + 0 from rfl, u8At_append,
      u8At_be8 (by omega)]
  have words : stepWordsAt (BitVec.ofNat 8 0x06 :: (be16 start ++ be8 ws.length ++ ws.flatMap wordLayout)) 4 ws.length =
      ws := by
    rw [layout]; exact stepWordsAt_layout ws _ hws
  have length : (BitVec.ofNat 8 0x06 :: (be16 start ++ be8 ws.length ++ ws.flatMap wordLayout)).length =
      4 + 14 * ws.length := by
    rw [layout, List.length_append, flatMap_wordLayout_length]; rfl
  have locked := s.reserving.runLocked_iff (start := start) h1 h16
  have work : ∀ u : State, writeStepsWork (BitVec.ofNat 8 0x06 :: (be16 start ++ be8 ws.length ++ ws.flatMap wordLayout)) u =
      if 1023 < start + ws.length - 1 then .refuse u .range
      else if u.runLocked start ws.length then .refuse u .locked
      else .ok { u with store := u.store.writeMany start (ws.map clampStep) } (be8 (clampCount ws)) := fun u => by
    rw [writeStepsWork, if_neg (by rw [length, count]; omega), first, count, words]
  refine ⟨fun body hb => writeSteps_length hs hb, fun hlast => ?_, fun hlast hl => ?_, fun hlast hl hwf => ?_⟩
  · exact request_refused hs _ writeStepsWork (by rw [work, if_pos hlast])
  · exact request_refused hs _ writeStepsWork (by rw [work, if_neg (by omega), if_pos (locked.mpr hl)])
  · refine ⟨s.store.writeMany start (ws.map clampStep), ?_, fun a => ?_⟩
    · have free : ¬ s.reserving.runLocked start ws.length = true := fun h => hl (locked.mp h)
      have taken := answered_taken (kind := 0x01) (code := 0x06) (tag := tag) hs (writeStepsWork
        (BitVec.ofNat 8 0x06 :: (be16 start ++ be8 ws.length ++ ws.flatMap wordLayout)))
      rw [work, if_neg (by omega), if_neg free] at taken
      show request _ _ _ _ _ _ = _
      rw [request, takes_free hs.1.1, taken]
      dsimp only [Answer.ok]
      rw [State.report_of_silent (by exact hs.1.2.2.1)]
      obtain ⟨⟨-, hr, -, -⟩, -, -⟩ := hs
      obtain ⟨⟩ := s
      rename_i ring _
      obtain ⟨⟩ := ring
      simp only at hr
      subst hr
      simp only [clampCount, clampStep_eq]
      rfl
    · rw [StepStore.read_writeMany _ hwf, List.length_map]
      by_cases ha : start ≤ a
      · rw [if_pos ha]
        by_cases hb : a < start + ws.length
        · have hi : a - start < ws.length := by omega
          rw [if_pos ⟨ha, hb⟩, List.getElem?_eq_getElem hi]
          simp [List.getD_eq_getElem?_getD, hi, clampStep_eq]
        · rw [if_neg (by omega), List.getElem?_eq_none (by omega)]; rfl
      · rw [if_neg (by omega), if_neg ha]; rfl

/-- Settles O31: the words are read one address after the other. -/
theorem readStepsReturns : Obligations.ReadStepsReturns := by
  intro s src tag a1 a0 n hs h1 h16
  refine ⟨fun body hb => readSteps_length hs hb, ?_⟩
  have start : u16At [BitVec.ofNat 8 0x07, a1, a0, n] 1 = 256 * a1.toNat + a0.toNat := by
    show a1.toNat * 256 + a0.toNat = _; omega
  have count : u8At [BitVec.ofNat 8 0x07, a1, a0, n] 3 = n.toNat := rfl
  have length : ¬ ([BitVec.ofNat 8 0x07, a1, a0, n].length ≠ 4 ∨ n.toNat < 1 ∨ 16 < n.toNat) := by
    rw [List.length_cons]; simp only [List.length_cons, List.length_nil]; omega
  have work : ∀ u : State, readStepsWork [BitVec.ofNat 8 0x07, a1, a0, n] u =
      if 1023 < 256 * a1.toNat + a0.toNat + n.toNat - 1 then .refuse u .range
      else .ok u (be16 (256 * a1.toNat + a0.toNat) ++ be8 n.toNat ++
        (u.store.readMany (256 * a1.toNat + a0.toNat) n.toNat).flatMap stepWordBytes) := fun u => by
    rw [readStepsWork, start, count, if_neg length]
  dsimp only
  by_cases hr : 1023 < 256 * a1.toNat + a0.toNat + n.toNat - 1
  · rw [if_pos hr]
    exact request_refused hs _ readStepsWork (by rw [work, if_pos hr])
  · rw [if_neg hr]
    have bytes : be16 (256 * a1.toNat + a0.toNat) ++ be8 n.toNat = [a1, a0, n] := by
      simp only [be16, be8, List.cons_append, List.nil_append, List.cons.injEq, and_true]
      refine ⟨?_, ?_, ?_⟩ <;> apply BitVec.eq_of_toNat_eq <;> simp only [BitVec.toNat_ofNat] <;> omega
    refine (request_still hs [a1, a0, n] readStepsWork (st := .ok) (by rw [work, if_neg hr]; rfl)).trans ?_
    rw [bytes, StepStore.readMany_eq, List.flatMap_map]
    rfl

end Sys2Proof.Machine
end

section
/-! The laws of the part in the course of an operation. An operation moves a head through short-lived conditions that no
law of `State.Lawful` knows: it has left its cycle and is not yet placed, it is in ARMING and not yet placed, it has entered
HEATING and runs no step. `HeadMode` names them, `State.Sound` states what holds meanwhile, one bundle of laws for each
part of the state, and `State.Lawful` is `State.Sound` with nothing in flight. -/

namespace Sys2Proof.Machine

/-! ### Counts over the heads -/

theorem allHeads_nodup : allHeads.Nodup := by decide

/-- Two tests that agree on every head but one. -/
theorem filter_allHeads_length {p q : Head → Bool} (h : Head) (hpq : ∀ j, j ≠ h → p j = q j) :
    (allHeads.filter p).length + (q h).toNat = (allHeads.filter q).length + (p h).toNat := by
  have key : ∀ l : List Head, l.Nodup → (l.filter p).length + (if h ∈ l then (q h).toNat else 0) =
      (l.filter q).length + (if h ∈ l then (p h).toNat else 0) := by
    intro l
    induction l with
    | nil => simp
    | cons a l ih =>
      intro hl
      obtain ⟨ha, hl⟩ := List.nodup_cons.mp hl
      have := ih hl
      by_cases hah : h = a
      · subst hah
        simp only [ha, if_false, List.mem_cons, true_or, if_true, List.filter_cons] at this ⊢
        cases p h <;> cases q h <;> simp_all
      · have hq := hpq a (Ne.symm hah)
        simp only [List.mem_cons, hah, false_or, List.filter_cons, hq] at this ⊢
        cases q a <;> simp_all <;> omega
  simpa [mem_allHeads] using key allHeads allHeads_nodup

/-- Two sums over the heads whose terms agree on every head but one. -/
theorem sum_allHeads {f g : Head → Nat} (h : Head) (hfg : ∀ j, j ≠ h → f j = g j) :
    (allHeads.map f).sum + g h = (allHeads.map g).sum + f h := by
  have key : ∀ l : List Head, l.Nodup → (l.map f).sum + (if h ∈ l then g h else 0) =
      (l.map g).sum + (if h ∈ l then f h else 0) := by
    intro l
    induction l with
    | nil => simp
    | cons a l ih =>
      intro hl
      obtain ⟨ha, hl⟩ := List.nodup_cons.mp hl
      have := ih hl
      by_cases hah : h = a
      · subst hah
        simp only [ha, if_false, List.mem_cons, true_or, if_true, List.map_cons, List.sum_cons] at this ⊢
        omega
      · have hq := hfg a (Ne.symm hah)
        simp only [List.mem_cons, hah, false_or, List.map_cons, List.sum_cons, hq] at this ⊢
        omega
  simpa [mem_allHeads] using key allHeads allHeads_nodup

/-- The assignments of a carrier that one head holds. -/
def HeadCtx.liveOf (c : HeadCtx) (id : CarrierId) : Nat := (c.assignments.filter fun a => a.carrier = id).length

/-- The assignments of a carrier held by heads, as a sum over the heads. -/
theorem State.liveOf_eq_sum (s : State) (id : CarrierId) :
    s.liveOf id = (allHeads.map fun h => (s.ctxAt h).liveOf id).sum := by
  unfold State.liveOf
  induction allHeads with
  | nil => rfl
  | cons h l ih =>
    rw [List.flatMap_cons, List.filter_append, List.length_append, ih, List.map_cons, List.sum_cons]
    rfl

/-- The live assignments of two states that differ in one head's assignments. -/
theorem State.liveOf_change {s t : State} (h : Head) (hst : ∀ j, j ≠ h → (t.ctxAt j).assignments = (s.ctxAt j).assignments)
    (id : CarrierId) : t.liveOf id + (s.ctxAt h).liveOf id = s.liveOf id + (t.ctxAt h).liveOf id := by
  rw [State.liveOf_eq_sum, State.liveOf_eq_sum]
  refine sum_allHeads (f := fun j => (t.ctxAt j).liveOf id) (g := fun j => (s.ctxAt j).liveOf id) h fun j hj => ?_
  simp only [HeadCtx.liveOf, hst j hj]

theorem State.liveOf_congr {s t : State} (hst : ∀ j, (t.ctxAt j).assignments = (s.ctxAt j).assignments)
    (id : CarrierId) : t.liveOf id = s.liveOf id := by
  simp only [State.liveOf, hst]

/-! ### The condition of a head in the course of an operation -/

/-- Where a head stands in the course of an operation. -/
inductive HeadMode where
  /-- As between two commands. -/
  | plain
  /-- It has left its cycle or its assignment and is not yet placed. -/
  | transit
  /-- In ARMING, its bind request not yet made or its requirements not yet set. -/
  | homeless
  /-- In HEATING without a running step: its cycle ended at its start and is not terminated yet. -/
  | deferred
  deriving DecidableEq, Repr

/-- What is in flight in the course of an operation. -/
structure Flight where
  /-- Where each head stands. -/
  mode : Head → HeadMode := fun _ => .plain
  /-- A retry of R33 may be owed. -/
  owes : Bool := false
  /-- The assignments of a carrier that are taken and not yet placed (R47). -/
  unplaced : CarrierId → Nat := fun _ => 0
  /-- The slots of the Record Queue that a refill may still fill (R142). -/
  slots : Nat := 0

/-- The flight with one head's condition changed. -/
def Flight.put (k : Flight) (h : Head) (m : HeadMode) : Flight := { k with mode := Function.update k.mode h m }

/-- The flight with a retry that may be owed. -/
def Flight.owing (k : Flight) : Flight := { k with owes := true }

@[simp] theorem Flight.put_mode (k : Flight) (h j : Head) (m : HeadMode) :
    (k.put h m).mode j = if j = h then m else k.mode j := by
  simp [Flight.put, Function.update_apply]
@[simp] theorem Flight.put_owes (k : Flight) (h : Head) (m : HeadMode) : (k.put h m).owes = k.owes := rfl
@[simp] theorem Flight.put_unplaced (k : Flight) (h : Head) (m : HeadMode) : (k.put h m).unplaced = k.unplaced := rfl
@[simp] theorem Flight.put_slots (k : Flight) (h : Head) (m : HeadMode) : (k.put h m).slots = k.slots := rfl
@[simp] theorem Flight.owing_mode (k : Flight) : k.owing.mode = k.mode := rfl
@[simp] theorem Flight.owing_owes (k : Flight) : k.owing.owes = true := rfl
@[simp] theorem Flight.owing_unplaced (k : Flight) : k.owing.unplaced = k.unplaced := rfl
@[simp] theorem Flight.owing_slots (k : Flight) : k.owing.slots = k.slots := rfl

theorem Flight.put_put (k : Flight) (h : Head) (m n : HeadMode) : (k.put h m).put h n = k.put h n := by
  simp [Flight.put]

theorem Flight.put_self (k : Flight) (h : Head) : k.put h (k.mode h) = k := by simp [Flight.put]

theorem Flight.put_plain {k : Flight} {h : Head} (hk : k.mode h = .plain) : k.put h .plain = k := by
  rw [← hk, Flight.put_self]

/-! ### Heads -/

/-- What a head holds that has left its cycle or assignment: at most one waiting assignment in each slot. -/
def HeadCtx.Vacated (c : HeadCtx) : Prop :=
  c.state = .idle ∧ c.current.any Current.promoted = false ∧ (c.next.isSome = true → c.current.isSome = true) ∧
    c.binding = none ∧ c.reqs = none ∧ c.cause = none

/-- The shape of a context by the condition of its head. -/
def HeadCtx.ShapedAs (c : HeadCtx) : HeadMode → Prop
  | .plain => c.Shaped
  | .transit => c.Vacated
  | .homeless =>
    c.state = .arming ∧ c.current.any Current.promoted = true ∧ c.cause = none ∧ c.heldRecord = none
  | .deferred => c.Shaped ∧ c.state = .heating

/-- The laws of one head (R6, R48, R50, R65, R66, R71). -/
structure HeadOk (m : HeadMode) (c : HeadCtx) (stale : Option Nat) (enable : Bool) : Prop where
  shaped : c.ShapedAs m
  rested : c.Rested
  unwatched : c.state ≠ .heating → stale = none
  enabled : c.state = .disabled ↔ enable = false

/-- The laws of the heads. -/
def State.HeadsSound (s : State) (m : Head → HeadMode) : Prop :=
  ∀ h, HeadOk (m h) (s.ctxAt h) (s.intakeAt h).staleTimer (s.configAt h).enable

/-! ### Power -/

/-- The laws of the power share table, the integrators and the drive slots. -/
structure State.PowerSound (s : State) : Prop where
  power : s.PowerWithinBudget
  demands : s.GrantsWithinDemands
  resting : s.RestingRowsEmpty
  integrators : s.IntegratorsBounded
  drives : s.OneDriveEach
  restingFrames : s.RestingFramesStop

/-! ### The Class Cache -/

/-- An entry that can be a victim: INVALID, or RESIDENT with no users (R30). -/
def Entry.idle (x : Entry) : Bool := x.body.isInvalid || (x.body.isResident && decide (x.users = 0))

/-- A binding fits the entry it names and the class it is for (R26, R28). -/
def Binding.Fits (b : Binding) (body : EntryBody) (id : ClassId) : Prop :=
  match body with
  | .invalid => False
  | .fetching tag _ => tag = id ∧ b.variant = 0
  | .resident tag d => clearLow id d.span = tag ∧ b.variant = variantOf id tag

/-- A descriptor held in an entry is a clamped one (R24). -/
def EntryBody.DescClamped : EntryBody → Prop
  | .resident tag d => d.Clamped tag
  | _ => True

/-- The laws of the cache entries, the bindings and the cache-wait list. -/
structure State.CacheSound (s : State) (k : Flight) : Prop where
  recency : s.RecencyPermutation
  oneMatch : s.OneMatch
  users : s.UsersAreBound
  bindings : ∀ h, ∀ b ∈ (s.ctxAt h).binding, b.Fits (s.entryAt b.entry).body (s.requestedId h)
  waiters : s.WaitersUnbound
  descriptors : ∀ e, (s.entryAt e).body.DescClamped
  noVictim : s.cache.wait ≠ [] → (∀ e, (s.entryAt e).idle = false) ∨ s.cache.retryOwed = true
  owes : s.cache.retryOwed = true → k.owes = true
  placed : ∀ h, (s.ctxAt h).state = .arming → k.mode h = .plain →
    (s.ctxAt h).binding.isSome = true ∨ ∃ w ∈ s.cache.wait, w.head = h
  requirements : ∀ h, (s.ctxAt h).state = .arming → k.mode h ≠ .homeless → ∀ c ∈ (s.ctxAt h).current,
    (s.ctxAt h).reqs = some (s.requirementsFor h c.asg (s.boundDesc h).isSome)
  running : ∀ h, (s.ctxAt h).state = .heating → k.mode h = .plain → (s.runningStep h).isSome = true

/-! ### Carriers and records -/

/-- The laws of the Carrier Table, the held records and the Record Queue. -/
structure State.BooksSound (s : State) (k : Flight) : Prop where
  carriers : s.CarriersDistinct
  named : s.AssignmentsNamed
  accounts : ∀ c ∈ s.carriers, c.assigned = c.live + c.good + c.reject + c.abort + c.fault + c.notStarted ∧
    c.live = s.liveOf c.id + k.unplaced c.id ∧ c.assigned ≤ 16
  closing : s.ClosingAccounted
  queue : s.QueueBounded
  waiting : 0 < s.recordsWaiting → Config.recordCapacity ≤ s.queue.length + k.slots

/-! ### Notices and the Ring Port -/

/-- The laws of the Notice Unit and the buffers of the Ring Port: a detected flag follows its condition or its block has
reported, and a reserved place counts as occupied. -/
structure State.FlagsSound (s : State) : Prop where
  records : s.notices.reported.records = true ∨ s.notices.detected.records = s.recordsPresent
  fault : s.notices.reported.fault = true ∨ s.notices.detected.fault = s.faultPresent
  claim : s.notices.reported.claim = true ∨ s.notices.detected.claim = s.claimPresent
  pending : s.notices.pending.diff s.notices.detected = {}
  forward : s.ring.forward.length ≤ Config.forwardCapacity
  general : s.ring.general.length + s.ring.reserved.toNat ≤ Config.generalCapacity
  counters : s.CountersBounded

/-- The laws of the part in the course of an operation. -/
structure State.Sound (s : State) (k : Flight) : Prop where
  heads : s.HeadsSound k.mode
  power : s.PowerSound
  cache : s.CacheSound k
  books : s.BooksSound k
  flags : s.FlagsSound

/-! ### Victims -/

theorem Entry.victimRank_pos {x : Entry} :
    0 < x.victimRank ↔ x.body.isResident = true ∧ x.users = 0 := by
  unfold Entry.victimRank EntryBody.isResident EntryBody.desc?
  split
  · split <;> simp_all
  · next hb =>
    cases hx : x.body with
    | resident tag d => exact absurd hx (hb tag d)
    | invalid => simp
    | fetching tag n => simp

theorem bestVictim_none {s : State} {es : List EntryIx} :
    bestVictim s es = none ↔ ∀ e ∈ es, (s.entryAt e).victimRank = 0 := by
  induction es with
  | nil => simp [bestVictim]
  | cons e es ih =>
    unfold bestVictim
    cases hb : bestVictim s es with
    | none =>
      simp only [List.mem_cons, forall_eq_or_imp, ← ih, hb, and_true]
      split <;> simp <;> omega
    | some b =>
      have : ¬ ∀ e ∈ es, (s.entryAt e).victimRank = 0 := by rw [← ih, hb]; simp
      simp only [List.mem_cons, forall_eq_or_imp, this, and_false, iff_false]
      split <;> simp

theorem bestVictim_rank {s : State} {es : List EntryIx} {v : EntryIx} (h : bestVictim s es = some v) :
    0 < (s.entryAt v).victimRank := by
  induction es generalizing v with
  | nil => simp [bestVictim] at h
  | cons e es ih =>
    unfold bestVictim at h
    cases hb : bestVictim s es with
    | none =>
      simp only [hb] at h
      split at h
      · cases h; assumption
      · cases h
    | some b =>
      simp only [hb] at h
      have hpos := ih hb
      split at h <;> cases h
      · omega
      · exact hpos

/-- There is no victim exactly where no entry is idle (R30). -/
theorem State.victim_none_iff {s : State} : s.victim = none ↔ ∀ e, (s.entryAt e).idle = false := by
  unfold State.victim
  cases hf : allEntries.find? fun e => (s.entryAt e).body.isInvalid with
  | some e =>
    have hi := List.find?_some hf
    simp only [reduceCtorEq, false_iff]
    intro hall
    have := hall e
    simp [Entry.idle, hi] at this
  | none =>
    simp only [List.find?_eq_none, mem_allEntries, true_implies] at hf
    rw [bestVictim_none]
    refine ⟨fun hr e => ?_, fun hi e _ => ?_⟩
    · have rank := hr e (mem_allEntries e)
      by_contra hidle
      have : (s.entryAt e).body.isResident = true ∧ (s.entryAt e).users = 0 := by
        simpa [Entry.idle, hf e] using hidle
      have := Entry.victimRank_pos.mpr this
      omega
    · by_contra hrank
      obtain ⟨h1, h2⟩ := Entry.victimRank_pos.mp (Nat.pos_of_ne_zero hrank)
      have := hi e
      simp [Entry.idle, h1, h2] at this

/-- A victim is an idle entry (R30). -/
theorem State.victim_idle {s : State} {v : EntryIx} (h : s.victim = some v) : (s.entryAt v).idle = true := by
  unfold State.victim at h
  cases hf : allEntries.find? fun e => (s.entryAt e).body.isInvalid with
  | some e =>
    rw [hf] at h
    cases h
    simp [Entry.idle, List.find?_some hf]
  | none =>
    rw [hf] at h
    obtain ⟨h1, h2⟩ := Entry.victimRank_pos.mp (bestVictim_rank h)
    simp [Entry.idle, h1, h2]

/-! ### From the laws of the part and back -/

theorem State.faultPresent_eq (s : State) : s.faultPresent = decide (∃ h, (s.ctxAt h).state = .faulted) := by
  rw [Bool.eq_iff_iff, State.faultPresent, List.any_eq_true, decide_eq_true_eq]
  simp only [mem_allHeads, true_and, decide_eq_true_eq]

theorem State.claimPresent_eq (s : State) : s.claimPresent = decide (∃ h, (s.rowAt h).cap.isSome = true) := by
  rw [Bool.eq_iff_iff, State.claimPresent, List.any_eq_true, decide_eq_true_eq]
  simp only [mem_allHeads, true_and]

/-- Nothing in flight. -/
def Flight.none : Flight := {}

@[simp] theorem Flight.none_mode (h : Head) : Flight.none.mode h = .plain := rfl
@[simp] theorem Flight.none_owes : Flight.none.owes = false := rfl
@[simp] theorem Flight.none_unplaced (id : CarrierId) : Flight.none.unplaced id = 0 := rfl
@[simp] theorem Flight.none_slots : Flight.none.slots = 0 := rfl

/-- The laws between two commands are the laws in the course of an operation, with nothing in flight. -/
theorem State.Lawful.sound {s : State} (h : s.Lawful) : s.Sound Flight.none where
  heads i := by
    obtain ⟨shape, rest, stale⟩ := h.shaped i
    exact ⟨shape, rest, stale, h.enables i⟩
  power := ⟨h.power, h.demands, h.resting, h.integrators, h.drives, h.restingFrames⟩
  cache :=
    { recency := h.recency, oneMatch := h.oneMatch, users := h.users, waiters := h.waiters
      bindings := fun i b hb => by
        have := h.bindings i b hb
        unfold Binding.Fits
        cases hbody : (s.entryAt b.entry).body <;> simpa only [hbody] using this
      descriptors := fun e => by
        have := h.descriptors e
        unfold EntryBody.DescClamped
        cases hbody : (s.entryAt e).body <;> simpa only [hbody] using this
      noVictim := fun hw => .inl (State.victim_none_iff.mp (h.noVictim hw))
      owes := fun ho => by rw [h.quiet.2.2] at ho; cases ho
      placed := fun i hi _ => h.placed i hi
      requirements := fun i hi _ => h.requirements i hi
      running := fun i hi _ => h.running i hi }
  books :=
    { carriers := h.carriers, named := h.named, accounts := fun c hc => h.accounts c hc, closing := h.closing
      queue := h.queue
      waiting := fun hw => by simpa [State.queueHasRoom] using h.waiting hw }
  flags := by
    obtain ⟨records, fault, claim, pending⟩ := h.causes
    obtain ⟨forward, general, reserved⟩ := h.ring
    exact
      { records := .inr records, fault := .inr (by rw [fault, State.faultPresent_eq])
        claim := .inr (by rw [claim, State.claimPresent_eq])
        pending, forward, general := by simpa [reserved] using general
        counters := h.counters }

/-- With nothing in flight, nothing reported and no place reserved, the laws of the part hold. -/
theorem State.Sound.lawful {s : State} (h : s.Sound Flight.none) (hstore : s.StoreSound) (hreset : s.ResetFollowed)
    (hreserved : s.ring.reserved = false) (hreported : s.notices.reported = {}) : s.Lawful where
  power := h.power.power
  demands := h.power.demands
  resting := h.power.resting
  integrators := h.power.integrators
  recency := h.cache.recency
  oneMatch := h.cache.oneMatch
  users := h.cache.users
  bindings i b hb := by
    have := h.cache.bindings i b hb
    unfold Binding.Fits at this
    cases hbody : (s.entryAt b.entry).body <;> simpa only [hbody] using this
  waiters := h.cache.waiters
  descriptors e := by
    have := h.cache.descriptors e
    unfold EntryBody.DescClamped at this
    cases hbody : (s.entryAt e).body <;> simpa only [hbody] using this
  shaped i := ⟨(h.heads i).shaped, (h.heads i).rested, (h.heads i).unwatched⟩
  enables i := (h.heads i).enabled
  placed i hi := h.cache.placed i hi rfl
  requirements i hi := h.cache.requirements i hi (by simp)
  running i hi := h.cache.running i hi rfl
  carriers := h.books.carriers
  named := h.books.named
  accounts := fun c hc => h.books.accounts c hc
  closing := h.books.closing
  queue := h.books.queue
  waiting hw := by simpa [State.queueHasRoom] using h.books.waiting hw
  store := hstore
  drives := h.power.drives
  ring := ⟨h.flags.forward, by simpa [hreserved] using h.flags.general, hreserved⟩
  noVictim hw := by
    refine State.victim_none_iff.mpr ((h.cache.noVictim hw).resolve_right fun ho => ?_)
    simpa using h.cache.owes ho
  counters := h.flags.counters
  restingFrames := h.power.restingFrames
  causes := by
    have none (b : Bool) (hb : b = false) : ¬ b = true := by simp [hb]
    refine ⟨h.flags.records.resolve_left (by simp [hreported]), ?_, ?_, h.flags.pending⟩
    · rw [← State.faultPresent_eq]; exact h.flags.fault.resolve_left (by simp [hreported])
    · rw [← State.claimPresent_eq]; exact h.flags.claim.resolve_left (by simp [hreported])
  resetHolds := hreset
  quiet := by
    refine ⟨hreserved, hreported, ?_⟩
    by_contra ho
    simpa using h.cache.owes (by simpa using ho)

end Sys2Proof.Machine
end

section
/-! Each bundle of laws speaks of a part of the state alone: states that agree on that part hold it alike. -/

namespace Sys2Proof.Machine

variable {s t : State} {k : Flight}

/-- A view of a context that an update keeps is kept at every head. -/
theorem State.modCtx_view {α : Type} (view : HeadCtx → α) {h : Head} {f : HeadCtx → HeadCtx}
    (hf : view (f (s.ctxAt h)) = view (s.ctxAt h)) (j : Head) : view ((s.modCtx h f).ctxAt j) = view (s.ctxAt j) := by
  rw [State.modCtx_ctxAt]
  split
  · next hj => rw [hf, hj]
  · rfl

theorem State.config_of_base (h : t.base = s.base) (j : Head) : t.configAt j = s.configAt j := by
  have := congrArg Base.config h
  simp only [State.base] at this
  rw [State.configAt, State.configAt, this]

theorem State.budget_of_base (h : t.base = s.base) : t.budget = s.budget := congrArg Base.budget h

theorem State.interlock_of_base (h : t.base = s.base) : t.interlock = s.interlock := congrArg Base.interlock h

/-! ### Power -/

/-- What the laws of power see of a context. -/
def HeadCtx.loop (c : HeadCtx) : HeadState × Nat × Bool := (c.state, c.iAcc, c.limited)

theorem HeadCtx.loop_eq_iff {c d : HeadCtx} :
    c.loop = d.loop ↔ c.state = d.state ∧ c.iAcc = d.iAcc ∧ c.limited = d.limited := by
  simp [HeadCtx.loop]

theorem State.grantSum_congr (rows : ∀ j, (t.rowAt j).grant = (s.rowAt j).grant) : t.grantSum = s.grantSum := by
  simp only [State.grantSum, rows]

theorem State.PowerSound.congr (h : s.PowerSound) (base : t.base = s.base) (rows : ∀ j, t.rowAt j = s.rowAt j)
    (loops : ∀ j, (t.ctxAt j).loop = (s.ctxAt j).loop) (drive : t.ring.drive = s.ring.drive) : t.PowerSound := by
  have state (j : Head) := (HeadCtx.loop_eq_iff.mp (loops j)).1
  have acc (j : Head) := (HeadCtx.loop_eq_iff.mp (loops j)).2.1
  have lim (j : Head) := (HeadCtx.loop_eq_iff.mp (loops j)).2.2
  refine ⟨?_, ?_, ?_, ?_, ?_, ?_⟩
  · have grants : t.grantSum = s.grantSum := State.grantSum_congr fun j => congrArg Row.grant (rows j)
    rw [State.PowerWithinBudget, grants, State.budget_of_base base]
    exact h.power
  · simpa only [State.GrantsWithinDemands, rows] using h.demands
  · simpa only [State.RestingRowsEmpty, State.NoClaimOf, state, rows] using h.resting
  · simpa only [State.IntegratorsBounded, state, acc, lim, State.config_of_base base] using h.integrators
  · rw [State.OneDriveEach, drive]; exact h.drives
  · simpa only [State.RestingFramesStop, state, drive] using h.restingFrames

/-! ### Heads -/

/-- The laws of the heads after a change of one head alone. -/
theorem State.HeadsSound.change {m : Head → HeadMode} (hs : s.HeadsSound m) (h : Head) {md : HeadMode}
    (config : ∀ j, t.configAt j = s.configAt j) (ctx : ∀ j, j ≠ h → t.ctxAt j = s.ctxAt j)
    (stale : ∀ j, j ≠ h → (t.intakeAt j).staleTimer = (s.intakeAt j).staleTimer)
    (own : HeadOk md (t.ctxAt h) (t.intakeAt h).staleTimer (s.configAt h).enable) :
    t.HeadsSound (Function.update m h md) := by
  intro j
  rw [Function.update_apply, config]
  split
  · next hj => rw [hj]; exact own
  · next hj => rw [ctx j hj, stale j hj]; exact hs j

theorem State.HeadsSound.congr {m : Head → HeadMode} (hs : s.HeadsSound m) (base : t.base = s.base)
    (ctx : ∀ j, t.ctxAt j = s.ctxAt j) (stale : ∀ j, (t.intakeAt j).staleTimer = (s.intakeAt j).staleTimer) :
    t.HeadsSound m := by
  intro j
  rw [State.config_of_base base, ctx, stale]
  exact hs j

/-! ### The Class Cache -/

/-- What the laws of the cache see of a context. -/
def HeadCtx.place (c : HeadCtx) : HeadState × Option Current × Option Binding × Option Requirements × Bool × Option StepWord :=
  (c.state, c.current, c.binding, c.reqs, decide (c.state = .arming) && c.settle.isNone, c.step)

theorem HeadCtx.place_eq_iff {c d : HeadCtx} :
    c.place = d.place ↔ c.state = d.state ∧ c.current = d.current ∧ c.binding = d.binding ∧ c.reqs = d.reqs ∧
      (c.state = .arming → c.settle.isNone = d.settle.isNone) ∧ c.step = d.step := by
  simp only [HeadCtx.place, Prod.mk.injEq]
  constructor
  · rintro ⟨hs, hc, hb, hr, hn, hp⟩
    refine ⟨hs, hc, hb, hr, fun ha => ?_, hp⟩
    simpa [ha, ← hs] using hn
  · rintro ⟨hs, hc, hb, hr, hn, hp⟩
    refine ⟨hs, hc, hb, hr, ?_, hp⟩
    rw [← hs]
    by_cases ha : c.state = .arming
    · rw [hn ha]
    · simp [ha]

/-- What the requirements see of a carrier entry. -/
def CarrierEntry.marks (c : CarrierEntry) : Purge × Bool := (c.purge, c.released)

/-- The requirements of an assignment from what the station shows of its carrier, the interlock and the settle timer. -/
theorem State.requirementsFor_congr {h : Head} {a : Assignment} {b : Bool}
    (carrier : (t.carrierAt a.carrier).map CarrierEntry.marks = (s.carrierAt a.carrier).map CarrierEntry.marks)
    (interlock : t.interlock = s.interlock) (settle : (t.ctxAt h).settle.isNone = (s.ctxAt h).settle.isNone) :
    t.requirementsFor h a b = s.requirementsFor h a b := by
  have any (p : Purge × Bool → Bool) (u : State) : ((u.carrierAt a.carrier).map CarrierEntry.marks).any p =
      (u.carrierAt a.carrier).any fun c => p c.marks := by
    cases u.carrierAt a.carrier <;> rfl
  have purge := congrArg (Option.any fun m => decide (m.1 = Purge.ok)) carrier
  have released := congrArg (Option.any fun m => m.2) carrier
  rw [any, any] at purge released
  unfold State.requirementsFor
  rw [interlock, settle]
  exact congrArg₂ (fun p r => (⟨b, p, r, s.interlock, (s.ctxAt h).settle.isNone⟩ : Requirements)) purge released

theorem State.boundDesc_congr {h : Head} (binding : (t.ctxAt h).binding = (s.ctxAt h).binding)
    (body : ∀ b ∈ (s.ctxAt h).binding, (t.entryAt b.entry).body = (s.entryAt b.entry).body) :
    t.boundDesc h = s.boundDesc h := by
  unfold State.boundDesc
  rw [binding]
  cases hb : (s.ctxAt h).binding with
  | none => rfl
  | some b => simp only [Option.bind_some, body b hb]

theorem State.runningStep_congr {h : Head} (step : (t.ctxAt h).step = (s.ctxAt h).step)
    (desc : t.boundDesc h = s.boundDesc h) : t.runningStep h = s.runningStep h := by
  unfold State.runningStep State.runningKind
  rw [step, desc]

theorem State.requestedId_congr {h : Head} (current : (t.ctxAt h).current = (s.ctxAt h).current) :
    t.requestedId h = s.requestedId h := by
  rw [State.requestedId, State.requestedId, current]

theorem State.boundHeads_congr (binding : ∀ j, (t.ctxAt j).binding = (s.ctxAt j).binding) (e : EntryIx) :
    t.boundHeads e = s.boundHeads e := by
  simp only [State.boundHeads, binding]

theorem State.CacheSound.congr (h : s.CacheSound k) (base : t.base = s.base)
    (entries : ∀ e, t.entryAt e = s.entryAt e) (wait : t.cache.wait = s.cache.wait)
    (owed : t.cache.retryOwed = s.cache.retryOwed) (places : ∀ j, (t.ctxAt j).place = (s.ctxAt j).place)
    (carriers : ∀ j, (s.ctxAt j).state = .arming → ∀ c ∈ (s.ctxAt j).current,
      (t.carrierAt c.asg.carrier).map CarrierEntry.marks = (s.carrierAt c.asg.carrier).map CarrierEntry.marks) :
    t.CacheSound k := by
  have state (j : Head) := (HeadCtx.place_eq_iff.mp (places j)).1
  have current (j : Head) := (HeadCtx.place_eq_iff.mp (places j)).2.1
  have binding (j : Head) := (HeadCtx.place_eq_iff.mp (places j)).2.2.1
  have reqs (j : Head) := (HeadCtx.place_eq_iff.mp (places j)).2.2.2.1
  have settle (j : Head) := (HeadCtx.place_eq_iff.mp (places j)).2.2.2.2.1
  have step (j : Head) := (HeadCtx.place_eq_iff.mp (places j)).2.2.2.2.2
  have desc (j : Head) : t.boundDesc j = s.boundDesc j :=
    State.boundDesc_congr (binding j) fun b _ => by rw [entries]
  refine ⟨?_, ?_, ?_, ?_, ?_, ?_, ?_, ?_, ?_, ?_, ?_⟩
  · simpa only [State.RecencyPermutation, entries] using h.recency
  · simpa only [State.OneMatch, entries] using h.oneMatch
  · simpa only [State.UsersAreBound, entries, State.boundHeads_congr binding] using h.users
  · simpa only [binding, entries, State.requestedId_congr (current _)] using h.bindings
  · simpa only [State.WaitersUnbound, wait, state, binding, current] using h.waiters
  · simpa only [entries] using h.descriptors
  · simpa only [entries, wait, owed] using h.noVictim
  · simpa only [owed] using h.owes
  · simpa only [state, binding, wait] using h.placed
  · intro j hj hm c hc
    have hset := settle j hj
    rw [state] at hj
    rw [current] at hc
    rw [reqs, desc, State.requirementsFor_congr (carriers j hj c hc) (State.interlock_of_base base) hset]
    exact h.requirements j hj hm c hc
  · intro j hj hm
    rw [State.runningStep_congr (step j) (desc j)]
    exact h.running j (state j ▸ hj) hm

/-! ### Carriers and records -/

/-- What the books see of a context. -/
def HeadCtx.work (c : HeadCtx) : Option Current × Option Assignment × Option JointRecord :=
  (c.current, c.next, c.heldRecord)

theorem HeadCtx.work_eq_iff {c d : HeadCtx} :
    c.work = d.work ↔ c.current = d.current ∧ c.next = d.next ∧ c.heldRecord = d.heldRecord := by
  simp [HeadCtx.work]

theorem HeadCtx.assignments_congr {c d : HeadCtx} (h : c.work = d.work) : c.assignments = d.assignments := by
  obtain ⟨h1, h2, -⟩ := HeadCtx.work_eq_iff.mp h
  rw [HeadCtx.assignments, HeadCtx.assignments, h1, h2]

theorem State.carrierAt_congr (carriers : t.carriers = s.carriers) (id : CarrierId) : t.carrierAt id = s.carrierAt id := by
  rw [State.carrierAt, State.carrierAt, carriers]

theorem State.BooksSound.congr (h : s.BooksSound k) (carriers : t.carriers = s.carriers) (queue : t.queue = s.queue)
    (works : ∀ j, (t.ctxAt j).work = (s.ctxAt j).work) : t.BooksSound k := by
  have asgs (j : Head) := HeadCtx.assignments_congr (works j)
  have held (j : Head) := (HeadCtx.work_eq_iff.mp (works j)).2.2
  refine ⟨?_, ?_, ?_, ?_, ?_, ?_⟩
  · simpa only [State.CarriersDistinct, carriers] using h.carriers
  · simpa only [State.AssignmentsNamed, asgs, State.carrierAt_congr carriers] using h.named
  · simpa only [carriers, State.liveOf_congr asgs] using h.accounts
  · simpa only [State.ClosingAccounted, carriers, held, State.holdsRecordOf, State.carrierAt_congr carriers]
      using h.closing
  · simpa only [State.QueueBounded, queue] using h.queue
  · simpa only [State.recordsWaiting, held, carriers, queue] using h.waiting

/-! ### Notices and the Ring Port -/

theorem State.faultPresent_congr (state : ∀ j, (t.ctxAt j).state = .faulted ↔ (s.ctxAt j).state = .faulted) :
    t.faultPresent = s.faultPresent := by
  simp only [State.faultPresent, state]

theorem State.claimPresent_congr (rows : ∀ j, (t.rowAt j).cap.isSome = (s.rowAt j).cap.isSome) :
    t.claimPresent = s.claimPresent := by
  simp only [State.claimPresent, rows]

/-- The laws of the notices and buffers hold alike where the flags agree, or more has been reported, and the conditions
that are not reported agree. -/
theorem State.FlagsSound.change (h : s.FlagsSound) (detected : t.notices.detected = s.notices.detected)
    (pending : t.notices.pending = s.notices.pending)
    (records : t.notices.reported.records = true ∨
      t.notices.reported.records = s.notices.reported.records ∧ t.recordsPresent = s.recordsPresent)
    (fault : t.notices.reported.fault = true ∨
      t.notices.reported.fault = s.notices.reported.fault ∧ t.faultPresent = s.faultPresent)
    (claim : t.notices.reported.claim = true ∨
      t.notices.reported.claim = s.notices.reported.claim ∧ t.claimPresent = s.claimPresent)
    (forward : t.ring.forward = s.ring.forward)
    (general : t.ring.general.length + t.ring.reserved.toNat ≤ Config.generalCapacity)
    (counters : t.ring.counters = s.ring.counters) : t.FlagsSound := by
  refine ⟨?_, ?_, ?_, ?_, ?_, general, ?_⟩
  · rcases records with r | ⟨r, p⟩
    · exact .inl r
    · rw [r, p, detected]; exact h.records
  · rcases fault with r | ⟨r, p⟩
    · exact .inl r
    · rw [r, p, detected]; exact h.fault
  · rcases claim with r | ⟨r, p⟩
    · exact .inl r
    · rw [r, p, detected]; exact h.claim
  · rw [pending, detected]; exact h.pending
  · rw [forward]; exact h.forward
  · rw [State.CountersBounded, counters]; exact h.counters

theorem State.FlagsSound.congr (h : s.FlagsSound) (notices : t.notices = s.notices)
    (records : t.recordsPresent = s.recordsPresent) (fault : t.faultPresent = s.faultPresent)
    (claim : t.claimPresent = s.claimPresent) (forward : t.ring.forward = s.ring.forward)
    (general : t.ring.general = s.ring.general) (reserved : t.ring.reserved = s.ring.reserved)
    (counters : t.ring.counters = s.ring.counters) : t.FlagsSound :=
  h.change (by rw [notices]) (by rw [notices]) (.inr ⟨by rw [notices], records⟩) (.inr ⟨by rw [notices], fault⟩)
    (.inr ⟨by rw [notices], claim⟩) forward (by rw [general, reserved]; exact h.general) counters

/-! ### What the laws of one head give -/

theorem HeadOk.settled_shape {m : HeadMode} {c : HeadCtx} {stale : Option Nat} {enable : Bool} (h : HeadOk m c stale enable)
    (ht : m ≠ .transit) (hl : m ≠ .homeless) : c.Shaped := by
  have := h.shaped
  cases m with
  | plain => exact this
  | transit => exact absurd rfl ht
  | homeless => exact absurd rfl hl
  | deferred => exact this.1

/-- A head in ARMING holds a promoted assignment. -/
theorem HeadOk.arming {m : HeadMode} {c : HeadCtx} {stale : Option Nat} {enable : Bool} (h : HeadOk m c stale enable)
    (hc : c.state = .arming) :
    c.current.any Current.promoted = true ∧ c.cause = none ∧ c.heldRecord = none := by
  have shape := h.shaped
  cases m with
  | plain =>
    simp only [HeadCtx.ShapedAs, HeadCtx.Shaped, hc] at shape
    exact ⟨shape.1, shape.2.2⟩
  | transit => rw [shape.1] at hc; cases hc
  | homeless => exact shape.2
  | deferred => rw [shape.2] at hc; cases hc

/-- A head in HEATING holds a promoted assignment and a binding. -/
theorem HeadOk.heating {m : HeadMode} {c : HeadCtx} {stale : Option Nat} {enable : Bool} (h : HeadOk m c stale enable)
    (hc : c.state = .heating) :
    c.current.any Current.promoted = true ∧ c.binding.isSome = true ∧ c.reqs = none ∧ c.cause = none ∧
      c.heldRecord = none := by
  have shape := h.settled_shape (by rintro rfl; have := h.shaped.1; rw [hc] at this; cases this)
    (by rintro rfl; have := h.shaped.1; rw [hc] at this; cases this)
  simpa only [HeadCtx.Shaped, hc] using shape

/-- A head neither in ARMING nor in HEATING is not bound. -/
theorem HeadOk.unbound {m : HeadMode} {c : HeadCtx} {stale : Option Nat} {enable : Bool} (h : HeadOk m c stale enable)
    (ha : c.state ≠ .arming) (hh : c.state ≠ .heating) : c.binding = none := by
  by_cases hm : m = .transit
  · subst hm
    obtain ⟨-, -, -, hb, -⟩ := h.shaped
    exact hb
  · have shape := h.settled_shape hm (by rintro rfl; exact ha h.shaped.1)
    unfold HeadCtx.Shaped at shape
    split at shape <;> simp_all

/-- A promoted current assignment. -/
theorem HeadCtx.promoted_current {c : HeadCtx} (h : c.current.any Current.promoted = true) :
    ∃ a, c.current = some { asg := a, promoted := true } := by
  cases hc : c.current with
  | none => simp [hc] at h
  | some k =>
    obtain ⟨a, p⟩ := k
    have : p = true := by simpa [hc] using h
    exact ⟨a, by rw [this]⟩

end Sys2Proof.Machine
end

section
/-! A head leaves its cycle or its assignment (R34, R71, R77): the operations of a termination and of a discard, taken
apart into steps that each keep the laws in the course of an operation. -/

namespace Sys2Proof.Machine

variable {s t : State} {k : Flight}

/-! ### Equality of states, field by field -/

theorem State.ext_at (base : s.base = t.base) (wait : s.cache.wait = t.cache.wait)
    (limit : s.cache.fetchLimit = t.cache.fetchLimit) (owed : s.cache.retryOwed = t.cache.retryOwed)
    (entries : ∀ e, s.entryAt e = t.entryAt e) (carriers : s.carriers = t.carriers) (ctx : ∀ h, s.ctxAt h = t.ctxAt h)
    (intake : ∀ h, s.intakeAt h = t.intakeAt h) (share : ∀ h, s.rowAt h = t.rowAt h) (queue : s.queue = t.queue)
    (ring : s.ring = t.ring) (notices : s.notices = t.notices) : s = t := by
  have hctx : s.ctx = t.ctx := Vector.ext fun i hi => ctx ⟨i, hi⟩
  have hintake : s.intake = t.intake := Vector.ext fun i hi => intake ⟨i, hi⟩
  have hshare : s.share = t.share := Vector.ext fun i hi => share ⟨i, hi⟩
  have hentries : s.cache.entries = t.cache.entries := Vector.ext fun i hi => entries ⟨i, hi⟩
  obtain ⟨_, _, _, _, _, ⟨_, _, _, _⟩, _, _, _, _, _, _, _, _, _, _, _, _⟩ := s
  obtain ⟨_, _, _, _, _, ⟨_, _, _, _⟩, _, _, _, _, _, _, _, _, _, _, _, _⟩ := t
  simp only [State.base, Base.mk.injEq] at base
  simp_all

theorem State.modCtx_modCtx (s : State) (h : Head) (f g : HeadCtx → HeadCtx) :
    (s.modCtx h f).modCtx h g = s.modCtx h fun c => g (f c) := by
  refine State.ext_at rfl rfl rfl rfl (fun _ => rfl) rfl (fun j => ?_) (fun _ => rfl) (fun _ => rfl) rfl rfl rfl
  by_cases hj : j = h
  · subst hj; simp
  · simp [State.modCtx_ctxAt_of_ne _ hj]

/-! ### Unbinding, field by field (R34) -/

/-- A head is the last user of the entry it is bound to. -/
def State.lastUser (s : State) (h : Head) : Bool :=
  (s.ctxAt h).binding.any fun b => decide ((s.entryAt b.entry).users - 1 = 0)

theorem State.unbind_ctxAt (s : State) (h j : Head) :
    (s.unbind h).ctxAt j = if j = h then { s.ctxAt h with binding := none } else s.ctxAt j := by
  cases hb : (s.ctxAt h).binding with
  | none =>
    rw [State.unbind_of_none hb]
    split
    · next hj => rw [hj, ← hb]
    · rfl
  | some b => exact (State.unbind_eq hb).1 j

theorem State.unbind_entryAt (s : State) (h : Head) (e : EntryIx) : (s.unbind h).entryAt e = (s.freed h).entryAt e := by
  rw [State.freed_entryAt]
  cases hb : (s.ctxAt h).binding with
  | none => rw [State.unbind_of_none hb]; rfl
  | some b => rw [(State.unbind_eq hb).2 e]; simp [eq_comm]

theorem State.unbind_retryOwed (s : State) (h : Head) :
    (s.unbind h).cache.retryOwed = (s.cache.retryOwed || s.lastUser h) := by
  unfold State.unbind State.lastUser
  cases hb : (s.ctxAt h).binding with
  | none => simp
  | some b =>
    simp only [State.modEntry_entryAt_self, State.modCtx_entryAt, Option.any_some]
    by_cases hu : (s.entryAt b.entry).users - 1 = 0
    · rw [if_pos hu]; simp [State.oweRetry, hu]
    · rw [if_neg hu]; simp [State.modEntry, hu]

@[simp] theorem State.unbind_wait (s : State) (h : Head) : (s.unbind h).cache.wait = s.cache.wait := by
  unfold State.unbind; split
  · rfl
  · dsimp only; split <;> rfl

@[simp] theorem State.unbind_fetchLimit (s : State) (h : Head) : (s.unbind h).cache.fetchLimit = s.cache.fetchLimit := by
  unfold State.unbind; split
  · rfl
  · dsimp only; split <;> rfl

@[simp] theorem State.unbind_carriers (s : State) (h : Head) : (s.unbind h).carriers = s.carriers := by
  unfold State.unbind; split
  · rfl
  · dsimp only; split <;> rfl

@[simp] theorem State.unbind_queue (s : State) (h : Head) : (s.unbind h).queue = s.queue := by
  unfold State.unbind; split
  · rfl
  · dsimp only; split <;> rfl

@[simp] theorem State.unbind_ring (s : State) (h : Head) : (s.unbind h).ring = s.ring := by
  unfold State.unbind; split
  · rfl
  · dsimp only; split <;> rfl

@[simp] theorem State.unbind_notices (s : State) (h : Head) : (s.unbind h).notices = s.notices := by
  unfold State.unbind; split
  · rfl
  · dsimp only; split <;> rfl

@[simp] theorem State.unbind_share (s : State) (h : Head) : (s.unbind h).share = s.share := by
  unfold State.unbind; split
  · rfl
  · dsimp only; split <;> rfl

@[simp] theorem State.unbind_intake (s : State) (h : Head) : (s.unbind h).intake = s.intake := by
  unfold State.unbind; split
  · rfl
  · dsimp only; split <;> rfl

@[simp] theorem State.unbind_rowAt (s : State) (h j : Head) : (s.unbind h).rowAt j = s.rowAt j := by
  simp [State.rowAt]

@[simp] theorem State.unbind_intakeAt (s : State) (h j : Head) : (s.unbind h).intakeAt j = s.intakeAt j := by
  simp [State.intakeAt]

/-! ### The stop of a cycle (R71, R132) -/

/-- What R66, R111, R132 and R164 leave of a head that is not HEATING. -/
structure State.AtRest (s : State) (h : Head) : Prop where
  row : s.rowAt h = {}
  claims : s.NoClaimOf h
  acc : (s.ctxAt h).iAcc = 0
  limited : (s.ctxAt h).limited = false
  timer : (s.ctxAt h).stepTimer = none
  prefetch : (s.ctxAt h).prefetch = .empty
  start : (s.ctxAt h).tStart = none
  feed : (s.ctxAt h).feedOwed = false
  sampled : (s.ctxAt h).sampleMark = none
  dstat : (s.ctxAt h).dstatMark = none
  stale : (s.intakeAt h).staleTimer = none
  frames : ∀ f ∈ s.ring.drive, f.head = h → f.source = .stop

/-- A head that is not HEATING is at rest. -/
theorem State.Sound.atRest (hs : s.Sound k) {h : Head} (hh : (s.ctxAt h).state ≠ .heating) : s.AtRest h := by
  obtain ⟨row, claims⟩ := hs.power.resting h hh
  obtain ⟨-, -, acc⟩ := hs.power.integrators h
  obtain ⟨acc, limited⟩ := acc hh
  obtain ⟨timer, prefetch, start, feed, sampled, dstat⟩ := (hs.heads h).rested hh
  exact { row, claims, acc, limited, timer, prefetch, start, feed, sampled, dstat, stale := (hs.heads h).unwatched hh
          frames := fun f hf e => hs.power.restingFrames f hf (by rw [e]; exact hh) }

@[simp] theorem State.releaseClaims_ctxAt (s : State) (h : Head) (j : Head) :
    (s.releaseClaims h).ctxAt j = s.ctxAt j := by
  simp [State.releaseClaims, State.reportClaim, State.ctxAt]
@[simp] theorem State.releaseClaims_intakeAt (s : State) (h : Head) (j : Head) :
    (s.releaseClaims h).intakeAt j = s.intakeAt j := by
  simp [State.releaseClaims, State.reportClaim, State.intakeAt]
@[simp] theorem State.releaseClaims_entryAt (s : State) (h : Head) (e : EntryIx) :
    (s.releaseClaims h).entryAt e = s.entryAt e := by
  simp [State.releaseClaims, State.reportClaim, State.entryAt]
@[simp] theorem State.releaseClaims_cache (s : State) (h : Head) :
    (s.releaseClaims h).cache = s.cache := by
  simp [State.releaseClaims, State.reportClaim]
@[simp] theorem State.releaseClaims_carriers (s : State) (h : Head) :
    (s.releaseClaims h).carriers = s.carriers := by
  simp [State.releaseClaims, State.reportClaim]
@[simp] theorem State.releaseClaims_queue (s : State) (h : Head) :
    (s.releaseClaims h).queue = s.queue := by
  simp [State.releaseClaims, State.reportClaim]
@[simp] theorem State.releaseClaims_ring (s : State) (h : Head) : (s.releaseClaims h).ring = s.ring := by
  simp [State.releaseClaims, State.reportClaim]
@[simp] theorem State.releaseClaims_notices (s : State) (h : Head) : (s.releaseClaims h).notices =
    { s.notices with reported := { s.notices.reported with claim := true } } := by
  simp [State.releaseClaims, State.reportClaim]

@[simp] theorem State.stop_ctxAt (s : State) (h : Head) (cancel : Bool) (j : Head) :
    (s.stop h cancel).ctxAt j = s.ctxAt j := by
  simp [State.stop, State.placeDrive]
@[simp] theorem State.stop_intakeAt (s : State) (h : Head) (cancel : Bool) (j : Head) :
    (s.stop h cancel).intakeAt j = s.intakeAt j := by
  simp [State.stop, State.placeDrive]
@[simp] theorem State.stop_entryAt (s : State) (h : Head) (cancel : Bool) (e : EntryIx) :
    (s.stop h cancel).entryAt e = s.entryAt e := by
  simp [State.stop, State.placeDrive]
@[simp] theorem State.stop_cache (s : State) (h : Head) (cancel : Bool) :
    (s.stop h cancel).cache = s.cache := by
  simp [State.stop, State.placeDrive]
@[simp] theorem State.stop_carriers (s : State) (h : Head) (cancel : Bool) :
    (s.stop h cancel).carriers = s.carriers := by
  simp [State.stop, State.placeDrive]
@[simp] theorem State.stop_queue (s : State) (h : Head) (cancel : Bool) :
    (s.stop h cancel).queue = s.queue := by
  simp [State.stop, State.placeDrive]
@[simp] theorem State.stop_ring (s : State) (h : Head) (cancel : Bool) :
    (s.stop h cancel).ring = { s.ring with drive := placeIn s.ring.drive (s.stopFrame h cancel) } := by
  simp [State.stop, State.placeDrive]
@[simp] theorem State.stop_notices (s : State) (h : Head) (cancel : Bool) : (s.stop h cancel).notices =
    { s.notices with reported := { s.notices.reported with claim := true } } := by
  simp [State.stop, State.placeDrive]

/-- The work of R71 in the Grant Arbiter, at Sample Intake and in the context of the head, which is HEATING still. -/
def State.cool (s : State) (h : Head) (cancel : Bool) (settle : Nat) : State :=
  ((s.stop h cancel).modIntake h fun i => { i with staleTimer := none }).modCtx h fun c => c.terminated settle

section
variable (s : State) (h j : Head) (cancel : Bool) (settle : Nat)

theorem State.cool_ctxAt :
    (s.cool h cancel settle).ctxAt j = if j = h then (s.ctxAt h).terminated settle else s.ctxAt j := by
  simp only [State.cool, State.modCtx_ctxAt, State.modIntake_ctxAt, State.stop_ctxAt]

@[simp] theorem State.cool_rowAt :
    (s.cool h cancel settle).rowAt j = if j = h then {} else (s.rowAt j).released h := by
  simp only [State.cool, State.modCtx_rowAt, State.modIntake_rowAt, State.stop_rowAt]

theorem State.cool_intakeAt :
    (s.cool h cancel settle).intakeAt j = if j = h then { s.intakeAt h with staleTimer := none } else s.intakeAt j := by
  simp only [State.cool, State.modCtx_intakeAt, State.modIntake_intakeAt, State.stop_intakeAt]

@[simp] theorem State.cool_entryAt (e : EntryIx) : (s.cool h cancel settle).entryAt e = s.entryAt e := by
  simp [State.cool]
@[simp] theorem State.cool_cache : (s.cool h cancel settle).cache = s.cache := by simp [State.cool]
@[simp] theorem State.cool_carriers : (s.cool h cancel settle).carriers = s.carriers := by simp [State.cool]
@[simp] theorem State.cool_queue : (s.cool h cancel settle).queue = s.queue := by simp [State.cool]
@[simp] theorem State.cool_ring : (s.cool h cancel settle).ring =
    { s.ring with drive := placeIn s.ring.drive (s.stopFrame h cancel) } := by simp [State.cool]
@[simp] theorem State.cool_notices : (s.cool h cancel settle).notices =
    { s.notices with reported := { s.notices.reported with claim := true } } := by simp [State.cool]
@[simp] theorem State.cool_base : (s.cool h cancel settle).base = s.base := by simp [State.cool]

end

/-- A release takes from a row at most its cap. -/
theorem Row.released_of_empty {h : Head} {r : Row} (hr : r = {}) : r.released h = {} := by
  subst hr; rfl

theorem Row.mem_released_cap {h : Head} {r : Row} {c : Cap} (hc : c ∈ (r.released h).cap) :
    c ∈ r.cap ∧ c.claimant ≠ h := by
  unfold Row.released at hc
  split at hc
  · cases hc
  · next hn =>
    refine ⟨hc, fun hcl => hn ?_⟩
    rw [Option.mem_def.mp hc]
    simpa using hcl

/-- Rows whose grants fall and whose demands stand, or which are emptied, keep the laws of power. -/
theorem State.grantSum_le (rows : ∀ j, (t.rowAt j).grant ≤ (s.rowAt j).grant) : t.grantSum ≤ s.grantSum := by
  unfold State.grantSum
  induction allHeads with
  | nil => simp
  | cons h l ih => simp only [List.map_cons, List.sum_cons]; have := rows h; omega

/-- The frames after a placement are those before and the new one, for its head. -/
theorem mem_placeIn {fs : List DriveFrame} {f g : DriveFrame} (hg : g ∈ placeIn fs f) :
    g ∈ fs ∨ (g.head = f.head ∧ g.source = f.source) := by
  induction fs with
  | nil => simp only [placeIn, List.mem_singleton] at hg; exact .inr ⟨by rw [hg], by rw [hg]⟩
  | cons a as ih =>
    unfold placeIn at hg
    split at hg
    · rcases List.mem_cons.mp hg with rfl | hg
      · exact .inr ⟨rfl, rfl⟩
      · exact .inl (List.mem_cons_of_mem _ hg)
    · rcases List.mem_cons.mp hg with rfl | hg
      · exact .inl (List.mem_cons_self)
      · exact (ih hg).imp_left (List.mem_cons_of_mem _)

/-- Where each head has at most one frame, the frame of the head placed is the one placed. -/
theorem mem_placeIn_own {fs : List DriveFrame} (hn : (fs.map DriveFrame.head).Nodup) {f g : DriveFrame}
    (hg : g ∈ placeIn fs f) (hh : g.head = f.head) : g.source = f.source := by
  induction fs with
  | nil => simp only [placeIn, List.mem_singleton] at hg; rw [hg]
  | cons a as ih =>
    obtain ⟨ha, hn⟩ := List.nodup_cons.mp hn
    unfold placeIn at hg
    split at hg
    · next haf =>
      rcases List.mem_cons.mp hg with rfl | hg
      · rfl
      · exact absurd (List.mem_map.mpr ⟨g, hg, hh.trans haf.symm⟩) ha
    · next haf =>
      rcases List.mem_cons.mp hg with rfl | hg
      · exact absurd hh haf
      · exact ih hn hg

theorem State.PowerSound.cool (hp : s.PowerSound) (h : Head) (cancel : Bool) (settle : Nat) :
    (s.cool h cancel settle).PowerSound := by
  have grants (j : Head) : ((s.cool h cancel settle).rowAt j).grant ≤ (s.rowAt j).grant ∧
      (((s.cool h cancel settle).rowAt j).grant ≤ ((s.cool h cancel settle).rowAt j).demand) := by
    rw [State.cool_rowAt]
    split
    · simp
    · obtain ⟨hg, hd, -⟩ := Row.released_grant h (s.rowAt j)
      rw [hg, hd]
      exact ⟨le_rfl, hp.demands j⟩
  have state (j : Head) : ((s.cool h cancel settle).ctxAt j).state = (s.ctxAt j).state := by
    rw [State.cool_ctxAt]; split
    · next hj => rw [hj]; rfl
    · rfl
  refine ⟨?_, fun j => (grants j).2, fun j hj => ?_, fun j => ?_, ?_, fun f hf hh => ?_⟩
  · rw [State.PowerWithinBudget, State.budget_of_base (s.cool_base h cancel settle)]
    exact ⟨(State.grantSum_le fun j => (grants j).1).trans hp.power.1, hp.power.2⟩
  · rw [state] at hj
    obtain ⟨row, claims⟩ := hp.resting j hj
    refine ⟨?_, fun i c hc => ?_⟩
    · rw [State.cool_rowAt, row]; split <;> rfl
    · rw [State.cool_rowAt] at hc
      split at hc
      · cases hc
      · exact claims i c (Row.mem_released_cap hc).1
  · rw [State.config_of_base (s.cool_base h cancel settle), State.cool_ctxAt]
    obtain ⟨h1, h2, h3⟩ := hp.integrators j
    split
    · exact ⟨Nat.zero_le _, h2, fun _ => ⟨rfl, rfl⟩⟩
    · exact ⟨h1, h2, h3⟩
  · rw [State.OneDriveEach, State.cool_ring]
    exact placeIn_nodup hp.drives _
  · rw [state] at hh
    rw [State.cool_ring] at hf
    rcases mem_placeIn hf with hf | ⟨-, hsrc⟩
    · exact hp.restingFrames f hf hh
    · exact hsrc

/-- The stop leaves a HEATING head at rest and keeps the laws. -/
theorem State.Sound.cool (hs : s.Sound k) {h : Head} (hh : (s.ctxAt h).state = .heating) (cancel : Bool) (settle : Nat) :
    (s.cool h cancel settle).Sound k ∧ (s.cool h cancel settle).AtRest h := by
  have own : (s.cool h cancel settle).ctxAt h = (s.ctxAt h).terminated settle := by rw [State.cool_ctxAt, if_pos rfl]
  have others (j : Head) (hj : j ≠ h) : (s.cool h cancel settle).ctxAt j = s.ctxAt j := by
    rw [State.cool_ctxAt, if_neg hj]
  have stale (j : Head) (hj : j ≠ h) : (s.cool h cancel settle).intakeAt j = s.intakeAt j := by
    rw [State.cool_intakeAt, if_neg hj]
  have view {α : Type} (v : HeadCtx → α) (hv : v ((s.ctxAt h).terminated settle) = v (s.ctxAt h)) (j : Head) :
      v ((s.cool h cancel settle).ctxAt j) = v (s.ctxAt j) := by
    by_cases hj : j = h
    · rw [hj, own, hv]
    · rw [others j hj]
  refine ⟨⟨?_, hs.power.cool h cancel settle, ?_, ?_, ?_⟩, ?_⟩
  · rw [← Function.update_eq_self h k.mode]
    have ok := hs.heads h
    refine hs.heads.change h (State.config_of_base (s.cool_base h cancel settle)) others
      (fun j hj => by rw [stale j hj]) ?_
    rw [own, State.cool_intakeAt, if_pos rfl]
    refine ⟨?_, fun hn => absurd hh hn, fun _ => rfl, ok.enabled⟩
    have shaped := ok.shaped
    unfold HeadCtx.ShapedAs at shaped ⊢
    split at shaped <;> simpa only [HeadCtx.Shaped, HeadCtx.Vacated, HeadCtx.terminated, hh] using shaped
  · refine hs.cache.congr (by simp) (by simp) (by simp) (by simp) (view HeadCtx.place ?_) fun j _ c _ => ?_
    · exact HeadCtx.place_eq_iff.mpr ⟨rfl, rfl, rfl, rfl, fun ha => absurd (hh.symm.trans ha) (by decide), rfl⟩
    · rw [State.carrierAt_congr (s.cool_carriers h cancel settle)]
  · exact hs.books.congr (by simp) (by simp) (view HeadCtx.work rfl)
  · exact hs.flags.change (by simp) (by simp) (.inr ⟨by simp, by simp [State.recordsPresent]⟩)
      (.inr ⟨by simp, State.faultPresent_congr fun j => by rw [view HeadCtx.state rfl]⟩) (.inl (by simp)) (by simp)
      (by simpa using hs.flags.general) (by simp)
  · exact
      { row := by simp
        claims := fun j c hc => by
          rw [State.cool_rowAt] at hc
          split at hc
          · cases hc
          · exact (Row.mem_released_cap hc).2
        acc := by rw [own]; rfl
        limited := by rw [own]; rfl
        timer := by rw [own]; rfl
        prefetch := by rw [own]; rfl
        start := by rw [own]; rfl
        feed := by rw [own]; rfl
        sampled := by rw [own]; rfl
        dstat := by rw [own]; rfl
        stale := by rw [State.cool_intakeAt, if_pos rfl]
        frames := fun f hf hfh => by
          rw [State.cool_ring] at hf
          exact mem_placeIn_own hs.power.drives hf hfh }

end Sys2Proof.Machine
end

section
/-! A head gives up its assignment, its record is offered, and it comes to rest IDLE, HELD or FAULTED (R34, R59, R74, R77,
R140). -/

namespace Sys2Proof.Machine

variable {s t : State} {k : Flight}

/-! ### Giving up the current assignment -/

/-- The context of a head that has given up its current assignment: unbound, its next one waiting in the current slot. -/
def HeadCtx.vacated (c : HeadCtx) : HeadCtx := { c.advance with binding := none, reqs := none, state := .idle }

/-- A head gives up its current assignment: it is unbound, leaves the cache-wait list and its slots advance (R34, R48, R77). -/
def State.vacate (s : State) (h : Head) : State :=
  ((s.unbind h).leaveWait h).modCtx h fun c => { c.advance with reqs := none, state := .idle }

section
variable (s : State) (h j : Head)

theorem State.vacate_ctxAt : (s.vacate h).ctxAt j = if j = h then (s.ctxAt h).vacated else s.ctxAt j := by
  have left (i : Head) : ((s.unbind h).leaveWait h).ctxAt i = (s.unbind h).ctxAt i := rfl
  rw [State.vacate, State.modCtx_ctxAt, left, left, State.unbind_ctxAt, State.unbind_ctxAt, if_pos rfl]
  split <;> rfl

@[simp] theorem State.vacate_entryAt (e : EntryIx) : (s.vacate h).entryAt e = (s.freed h).entryAt e := by
  rw [← State.unbind_entryAt]; rfl
@[simp] theorem State.vacate_wait : (s.vacate h).cache.wait = s.cache.wait.filter fun w => w.head ≠ h := by
  simp [State.vacate, State.leaveWait]
@[simp] theorem State.vacate_fetchLimit : (s.vacate h).cache.fetchLimit = s.cache.fetchLimit := by
  simp [State.vacate, State.leaveWait]
@[simp] theorem State.vacate_retryOwed : (s.vacate h).cache.retryOwed = (s.cache.retryOwed || s.lastUser h) := by
  simp [State.vacate, State.leaveWait, State.unbind_retryOwed]
@[simp] theorem State.vacate_carriers : (s.vacate h).carriers = s.carriers := by simp [State.vacate, State.leaveWait]
@[simp] theorem State.vacate_queue : (s.vacate h).queue = s.queue := by simp [State.vacate, State.leaveWait]
@[simp] theorem State.vacate_ring : (s.vacate h).ring = s.ring := by simp [State.vacate, State.leaveWait]
@[simp] theorem State.vacate_notices : (s.vacate h).notices = s.notices := by simp [State.vacate, State.leaveWait]
@[simp] theorem State.vacate_rowAt : (s.vacate h).rowAt j = s.rowAt j := by simp [State.vacate, State.leaveWait]
@[simp] theorem State.vacate_intakeAt : (s.vacate h).intakeAt j = s.intakeAt j := by simp [State.vacate, State.leaveWait]
@[simp] theorem State.vacate_base : (s.vacate h).base = s.base := by simp [State.vacate]

end

theorem State.vacate_ctxAt_self (s : State) (h : Head) : (s.vacate h).ctxAt h = (s.ctxAt h).vacated := by
  rw [State.vacate_ctxAt, if_pos rfl]

theorem State.vacate_ctxAt_of_ne (s : State) {h j : Head} (hj : j ≠ h) : (s.vacate h).ctxAt j = s.ctxAt j := by
  rw [State.vacate_ctxAt, if_neg hj]

theorem State.freed_body (s : State) (h : Head) (e : EntryIx) : ((s.freed h).entryAt e).body = (s.entryAt e).body := by
  simp

theorem State.boundHeads_length_change (h : Head) (hst : ∀ j, j ≠ h → (t.ctxAt j).binding = (s.ctxAt j).binding)
    (e : EntryIx) :
    (t.boundHeads e).length + ((s.ctxAt h).binding.any fun b => b.entry = e).toNat =
      (s.boundHeads e).length + ((t.ctxAt h).binding.any fun b => b.entry = e).toNat :=
  filter_allHeads_length (p := fun j => (t.ctxAt j).binding.any fun b : Binding => b.entry = e)
    (q := fun j => (s.ctxAt j).binding.any fun b : Binding => b.entry = e) h fun j hj => by rw [hst j hj]

/-- An entry that is not idle is not idle once a head has left it, unless that was its last user. -/
theorem State.freed_idle {h : Head} {e : EntryIx} (hi : (s.entryAt e).idle = false) (hl : s.lastUser h = false) :
    ((s.freed h).entryAt e).idle = false := by
  rw [State.freed_entryAt]
  unfold Entry.idle at hi ⊢
  simp only [Bool.or_eq_false_iff, Bool.and_eq_false_iff, decide_eq_false_iff_not] at hi ⊢
  refine ⟨hi.1, hi.2.imp_right fun hu => ?_⟩
  unfold State.lastUser at hl
  cases hb : (s.ctxAt h).binding with
  | none => simpa using hu
  | some b =>
    rw [hb] at hl
    simp only [Option.any_some, decide_eq_false_iff_not, decide_eq_true_eq] at hl ⊢
    by_cases he : b.entry = e
    · subst he; simpa using hl
    · simpa [he] using hu

theorem State.CacheSound.vacate (cs : s.CacheSound k) (h : Head) :
    (s.vacate h).CacheSound (k.put h .transit).owing := by
  have ne_of_state {j : Head} {st : HeadState} (hst : st ≠ .idle) (hj : ((s.vacate h).ctxAt j).state = st) : j ≠ h := by
    rintro rfl
    rw [State.vacate_ctxAt_self] at hj
    exact hst hj.symm
  have body (e : EntryIx) : ((s.vacate h).entryAt e).body = (s.entryAt e).body := by simp
  have desc {j : Head} (hj : j ≠ h) : (s.vacate h).boundDesc j = s.boundDesc j :=
    State.boundDesc_congr (by rw [s.vacate_ctxAt_of_ne hj]) fun b _ => body _
  refine ⟨?_, ?_, fun e => ?_, fun j b hb => ?_, ⟨?_, fun w hw => ?_⟩, fun e => ?_, fun hw => ?_, fun _ => rfl,
    fun j hj hm => ?_, fun j hj hm c hc => ?_, fun j hj hm => ?_⟩
  · simpa [State.RecencyPermutation] using cs.recency
  · simpa only [State.OneMatch, body] using cs.oneMatch
  · have count := State.boundHeads_length_change (s := s) (t := s.vacate h) h
      (fun j hj => by rw [s.vacate_ctxAt_of_ne hj]) e
    have none : ((s.vacate h).ctxAt h).binding = none := by rw [State.vacate_ctxAt_self]; rfl
    rw [none] at count
    have users := cs.users e
    simp only [State.vacate_entryAt, State.freed_entryAt]
    cases hb : (s.ctxAt h).binding.any fun b => b.entry = e <;> simp [hb] at count ⊢ <;> omega
  · have hj : j ≠ h := by
      rintro rfl
      rw [State.vacate_ctxAt_self] at hb
      cases hb
    rw [s.vacate_ctxAt_of_ne hj] at hb
    rw [body, State.requestedId_congr (s := s) (by rw [s.vacate_ctxAt_of_ne hj])]
    exact cs.bindings j b hb
  · rw [State.vacate_wait]
    exact cs.waiters.1.sublist (List.filter_sublist.map _)
  · rw [State.vacate_wait, List.mem_filter] at hw
    rw [s.vacate_ctxAt_of_ne (by simpa using hw.2)]
    exact cs.waiters.2 w hw.1
  · rw [body]; exact cs.descriptors e
  · rw [State.vacate_retryOwed]
    have wait : s.cache.wait ≠ [] := fun he => hw (by simp [he])
    rcases cs.noVictim wait with hi | ho
    · cases hl : s.lastUser h with
      | true => exact .inr (by simp)
      | false =>
        exact .inl fun e => by rw [State.vacate_entryAt]; exact State.freed_idle (hi e) hl
    · exact .inr (by simp [ho])
  · have hne := ne_of_state (by decide) hj
    rw [s.vacate_ctxAt_of_ne hne] at hj ⊢
    rcases cs.placed j hj (by simpa [hne] using hm) with hb | ⟨w, hw, rfl⟩
    · exact .inl hb
    · exact .inr ⟨w, by simp [hw, hne], rfl⟩
  · have hne := ne_of_state (by decide) hj
    rw [s.vacate_ctxAt_of_ne hne] at hj hc ⊢
    rw [desc hne, State.requirementsFor_congr (s := s) (by rw [State.carrierAt_congr (s.vacate_carriers h)])
      (State.interlock_of_base (s.vacate_base h)) (by rw [s.vacate_ctxAt_of_ne hne])]
    exact cs.requirements j hj (by simpa [hne] using hm) c hc
  · have hne := ne_of_state (by decide) hj
    rw [State.runningStep_congr (s := s) (by rw [s.vacate_ctxAt_of_ne hne]) (desc hne)]
    rw [s.vacate_ctxAt_of_ne hne] at hj
    exact cs.running j hj (by simpa [hne] using hm)

theorem State.PowerSound.vacate (hp : s.PowerSound) {h : Head} (hr : s.AtRest h) : (s.vacate h).PowerSound := by
  have claims (j : Head) : (s.vacate h).NoClaimOf j ↔ s.NoClaimOf j := by simp [State.NoClaimOf]
  refine ⟨?_, ?_, fun j hj => ?_, fun j => ?_, ?_, fun f hf hh => ?_⟩
  · rw [State.PowerWithinBudget, State.budget_of_base (s.vacate_base h),
      State.grantSum_congr (s := s) fun j => by rw [State.vacate_rowAt]]
    exact hp.power
  · simpa [State.GrantsWithinDemands] using hp.demands
  · rw [State.vacate_rowAt, claims]
    by_cases hne : j = h
    · subst hne; exact ⟨hr.row, hr.claims⟩
    · rw [s.vacate_ctxAt_of_ne hne] at hj
      exact hp.resting j hj
  · rw [State.config_of_base (s.vacate_base h)]
    obtain ⟨h1, h2, h3⟩ := hp.integrators j
    by_cases hne : j = h
    · subst hne
      rw [State.vacate_ctxAt_self]
      exact ⟨h1, h2, fun _ => ⟨hr.acc, hr.limited⟩⟩
    · rw [s.vacate_ctxAt_of_ne hne]
      exact ⟨h1, h2, h3⟩
  · rw [State.OneDriveEach, State.vacate_ring]; exact hp.drives
  · rw [State.vacate_ring] at hf
    by_cases hne : f.head = h
    · exact hr.frames f hf hne
    · rw [s.vacate_ctxAt_of_ne hne] at hh
      exact hp.restingFrames f hf hh

/-- A head that may give up its assignment: it is enabled and no fault is on record. -/
def HeadCtx.AtWork (c : HeadCtx) : Prop := c.cause = none ∧ c.state ≠ .disabled ∧ c.state ≠ .faulted

theorem HeadOk.atWork {m : HeadMode} {c : HeadCtx} {stale : Option Nat} {enable : Bool} (h : HeadOk m c stale enable)
    (hc : c.state = .arming ∨ c.state = .heating) : c.AtWork := by
  rcases hc with a | a
  · exact ⟨(h.arming a).2.1, by rw [a]; decide, by rw [a]; decide⟩
  · exact ⟨(h.heating a).2.2.2.1, by rw [a]; decide, by rw [a]; decide⟩

theorem State.HeadsSound.vacate (hs : s.HeadsSound k.mode) {h : Head} (hr : s.AtRest h) (hh : (s.ctxAt h).AtWork) :
    (s.vacate h).HeadsSound (k.put h .transit).mode := by
  have ok := hs h
  obtain ⟨cause, enabled, -⟩ := hh
  refine hs.change h (State.config_of_base (s.vacate_base h)) (fun j hj => s.vacate_ctxAt_of_ne hj)
    (fun j _ => by rw [State.vacate_intakeAt]) ?_
  rw [State.vacate_ctxAt_self, State.vacate_intakeAt]
  refine ⟨⟨rfl, ?_, fun hn => (by cases hn), rfl, rfl, cause⟩, fun _ => ?_, fun _ => hr.stale, ?_⟩
  · show ((s.ctxAt h).next.map _).any _ = false
    cases (s.ctxAt h).next <;> rfl
  · exact ⟨hr.timer, hr.prefetch, hr.start, hr.feed, hr.sampled, hr.dstat⟩
  · refine ⟨fun hn => (by cases hn), fun he => ?_⟩
    exact absurd (ok.enabled.mpr he) enabled

theorem State.FlagsSound.vacate (hf : s.FlagsSound) {h : Head} (hh : (s.ctxAt h).AtWork) : (s.vacate h).FlagsSound := by
  refine hf.congr (by simp) (by simp [State.recordsPresent]) (State.faultPresent_congr fun j => ?_)
    (State.claimPresent_congr fun j => by simp) (by simp) (by simp) (by simp) (by simp)
  by_cases hj : j = h
  · subst hj
    rw [State.vacate_ctxAt_self]
    exact ⟨fun hn => (by cases hn), fun hn => absurd hn hh.2.2⟩
  · rw [s.vacate_ctxAt_of_ne hj]

/-! ### The account of the carrier (R59) -/

/-- A change of a carrier entry that counts one assignment that is live no more. -/
structure CountsEnd (f : CarrierEntry → CarrierEntry) : Prop where
  id : ∀ c, (f c).id = c.id
  closing : ∀ c, (f c).closing = c.closing
  marks : ∀ c, (f c).marks = c.marks
  assigned : ∀ c, (f c).assigned = c.assigned
  live : ∀ c, (f c).live = c.live - 1
  counts : ∀ c, (f c).good + (f c).reject + (f c).abort + (f c).fault + (f c).notStarted =
    c.good + c.reject + c.abort + c.fault + c.notStarted + 1

theorem countsEnd_ended (o : OutcomeClass) : CountsEnd (CarrierEntry.ended o) := by
  cases o <;> exact
    { id := fun _ => rfl, closing := fun _ => rfl, marks := fun _ => rfl, assigned := fun _ => rfl, live := fun _ => rfl
      counts := fun c => by simp only [CarrierEntry.ended]; omega }

theorem countsEnd_discarded : CountsEnd CarrierEntry.discarded :=
  { id := fun _ => rfl, closing := fun _ => rfl, marks := fun _ => rfl, assigned := fun _ => rfl, live := fun _ => rfl
    counts := fun c => by simp only [CarrierEntry.discarded]; omega }

/-- A look-up in a list of carriers each of which has been changed but for its id. -/
theorem find?_map_carrier {cs : List CarrierEntry} {g : CarrierEntry → CarrierEntry} (hg : ∀ c, (g c).id = c.id)
    (id : CarrierId) : (cs.map g).find? (fun c => c.id = id) = (cs.find? fun c => c.id = id).map g := by
  induction cs with
  | nil => rfl
  | cons c cs ih =>
    simp only [List.map_cons, List.find?_cons, hg]
    split
    · rfl
    · exact ih

theorem State.modCarrier_carrierAt (s : State) (i : CarrierId) {f : CarrierEntry → CarrierEntry}
    (hf : ∀ c, (f c).id = c.id) (id : CarrierId) :
    (s.modCarrier i f).carrierAt id = (s.carrierAt id).map fun c => if c.id = i then f c else c := by
  rw [State.carrierAt, State.modCarrier_carriers, find?_map_carrier]
  · rfl
  · intro c; split
    · exact hf c
    · rfl

/-- What is looked up is listed, under its id. -/
theorem State.carrierAt_mem {id : CarrierId} {c : CarrierEntry} (h : s.carrierAt id = some c) :
    c ∈ s.carriers ∧ c.id = id :=
  ⟨List.mem_of_find?_eq_some h, by simpa using List.find?_some h⟩

theorem State.carrierAt_isSome_iff {id : CarrierId} : (s.carrierAt id).isSome = true ↔ ∃ c ∈ s.carriers, c.id = id := by
  simp [State.carrierAt]

/-- With distinct ids the entry listed under an id is the one looked up. -/
theorem State.carrierAt_of_mem (hn : (s.carriers.map CarrierEntry.id).Nodup) {c : CarrierEntry} (hc : c ∈ s.carriers) :
    s.carrierAt c.id = some c := by
  obtain ⟨d, hd⟩ := Option.isSome_iff_exists.mp (State.carrierAt_isSome_iff.mpr ⟨c, hc, rfl⟩)
  obtain ⟨hm, hid⟩ := State.carrierAt_mem hd
  rw [hd, List.inj_on_of_nodup_map hn hm hc hid]

/-- The current assignment given up, and its carrier's count changed. -/
def State.dismiss (s : State) (h : Head) (id : CarrierId) (f : CarrierEntry → CarrierEntry) : State :=
  (s.vacate h).modCarrier id f

theorem HeadCtx.vacated_assignments {c : HeadCtx} {a : Assignment} {p : Bool} (hc : c.current = some ⟨a, p⟩) :
    c.assignments = a :: c.vacated.assignments := by
  simp [HeadCtx.assignments, HeadCtx.vacated, HeadCtx.advance, hc]
  cases c.next <;> rfl

theorem State.dismiss_recordsWaiting {h : Head} {id : CarrierId} {f : CarrierEntry → CarrierEntry} (hf : CountsEnd f) :
    (s.dismiss h id f).recordsWaiting = s.recordsWaiting := by
  have held (j : Head) : ((s.dismiss h id f).ctxAt j).heldRecord = (s.ctxAt j).heldRecord := by
    rw [State.dismiss, State.modCarrier_ctxAt, State.vacate_ctxAt]
    split
    · next hj => rw [hj]; rfl
    · rfl
  have closing : ((s.dismiss h id f).carriers.filter fun c => c.closing).length =
      (s.carriers.filter fun c => c.closing).length := by
    rw [State.dismiss, State.modCarrier_carriers, State.vacate_carriers, List.filter_map, List.length_map]
    congr 1
    refine List.filter_congr fun c _ => ?_
    simp only [Function.comp_apply]
    split
    · rw [hf.closing]
    · rfl
  simp only [State.recordsWaiting, held, closing]

theorem State.BooksSound.dismiss (hb : s.BooksSound k) {h : Head} {a : Assignment} {p : Bool}
    (hc : (s.ctxAt h).current = some ⟨a, p⟩) {f : CarrierEntry → CarrierEntry} (hf : CountsEnd f) :
    (s.dismiss h a.carrier f).BooksSound (k.put h .transit).owing := by
  have hid (c : CarrierEntry) : (if c.id = a.carrier then f c else c).id = c.id := by
    split
    · exact hf.id c
    · rfl
  have ctx (j : Head) : (s.dismiss h a.carrier f).ctxAt j = if j = h then (s.ctxAt h).vacated else s.ctxAt j := by
    rw [State.dismiss, State.modCarrier_ctxAt, State.vacate_ctxAt]
  have carriers : (s.dismiss h a.carrier f).carriers = s.carriers.map fun c => if c.id = a.carrier then f c else c := by
    rw [State.dismiss, State.modCarrier_carriers, State.vacate_carriers]
  have some (id : CarrierId) : ((s.dismiss h a.carrier f).carrierAt id).isSome = (s.carrierAt id).isSome := by
    rw [State.dismiss, State.modCarrier_carrierAt _ _ hf.id, Option.isSome_map,
      State.carrierAt_congr (s.vacate_carriers h)]
  have old := HeadCtx.vacated_assignments hc
  have held (j : Head) : ((s.dismiss h a.carrier f).ctxAt j).heldRecord = (s.ctxAt j).heldRecord := by
    rw [ctx]; split
    · next hj => rw [hj]; rfl
    · rfl
  have holds (id : CarrierId) : (s.dismiss h a.carrier f).holdsRecordOf id = s.holdsRecordOf id := by
    simp only [State.holdsRecordOf, held]
  have live (id : CarrierId) : (s.dismiss h a.carrier f).liveOf id + (if a.carrier = id then 1 else 0) = s.liveOf id := by
    have := State.liveOf_change (s := s) (t := s.dismiss h a.carrier f) h
      (fun j hj => by rw [ctx, if_neg hj]) id
    rw [ctx, if_pos rfl, HeadCtx.liveOf, HeadCtx.liveOf, old, List.filter_cons] at this
    split at this <;> simp_all <;> omega
  refine ⟨?_, fun j => ?_, fun c hc' => ?_, ⟨fun c hc' hcl => ?_, fun j r hr => ?_⟩, ?_, fun hw => ?_⟩
  · rw [State.CarriersDistinct, carriers, List.length_map, List.map_map]
    refine ⟨hb.carriers.1, ?_⟩
    rw [show CarrierEntry.id ∘ (fun c => if c.id = a.carrier then f c else c) = CarrierEntry.id from funext hid]
    exact hb.carriers.2
  · simp only [some]
    rw [ctx]
    split
    · obtain ⟨hn, hm⟩ := hb.named h
      rw [old] at hn hm
      exact ⟨(List.nodup_cons.mp hn).2, fun b hb' => hm b (List.mem_cons_of_mem _ hb')⟩
    · exact hb.named j
  · rw [carriers, List.mem_map] at hc'
    obtain ⟨c, hc', rfl⟩ := hc'
    obtain ⟨sum, hl, h16⟩ := hb.accounts c hc'
    have := live c.id
    simp only [hid, Flight.owing_unplaced, Flight.put_unplaced]
    split
    · next hca =>
      have c1 := hf.counts c
      have c2 := hf.live c
      rw [hf.assigned]
      rw [if_pos hca.symm] at this
      omega
    · next hca =>
      rw [if_neg (Ne.symm hca)] at this
      omega
  · rw [carriers, List.mem_map] at hc'
    obtain ⟨c, hc', rfl⟩ := hc'
    rw [hid, holds]
    have : c.closing = true := by
      split at hcl
      · rwa [hf.closing] at hcl
      · exact hcl
    obtain ⟨h1, h2⟩ := hb.closing.1 c hc' this
    refine ⟨?_, h2⟩
    split
    · rw [hf.live]; omega
    · exact h1
  · rw [held] at hr
    rw [some]
    exact hb.closing.2 j r hr
  · rw [State.QueueBounded, State.dismiss, State.modCarrier_queue, State.vacate_queue]
    exact hb.queue
  · rw [State.dismiss_recordsWaiting hf] at hw
    rw [State.dismiss, State.modCarrier_queue, State.vacate_queue]
    exact hb.waiting hw

/-- The carrier of an assignment given up has an entry that is OPEN, since that assignment was live. -/
theorem State.BooksSound.dismiss_open (hb : s.BooksSound k) {h : Head} {a : Assignment} {p : Bool}
    (hc : (s.ctxAt h).current = some ⟨a, p⟩) {f : CarrierEntry → CarrierEntry} (hf : CountsEnd f) :
    ∃ c, (s.dismiss h a.carrier f).carrierAt a.carrier = some c ∧ c.closing = false := by
  have old := HeadCtx.vacated_assignments hc
  have ha : a ∈ (s.ctxAt h).assignments := by rw [old]; exact List.mem_cons_self
  obtain ⟨c, hc'⟩ := Option.isSome_iff_exists.mp ((hb.named h).2 a ha)
  obtain ⟨hm, hid⟩ := State.carrierAt_mem hc'
  refine ⟨f c, ?_, ?_⟩
  · rw [State.dismiss, State.modCarrier_carrierAt _ _ hf.id, State.carrierAt_congr (s.vacate_carriers h), hc']
    simp [hid]
  · rw [hf.closing]
    by_contra hcl
    have zero := (hb.closing.1 c hm (by simpa using hcl)).1
    have pos : 0 < s.liveOf c.id := by
      rw [State.liveOf, List.length_pos_iff]
      refine List.ne_nil_of_mem (a := a) ?_
      rw [List.mem_filter, List.mem_flatMap]
      exact ⟨⟨h, mem_allHeads h, ha⟩, by simp [hid]⟩
    have := (hb.accounts c hm).2.1
    omega

/-- A head at rest gives up its current assignment. -/
theorem State.Sound.dismiss (hs : s.Sound k) {h : Head} (hr : s.AtRest h) (hh : (s.ctxAt h).AtWork) {a : Assignment} {p : Bool}
    (hc : (s.ctxAt h).current = some ⟨a, p⟩) {f : CarrierEntry → CarrierEntry} (hf : CountsEnd f) :
    (s.dismiss h a.carrier f).Sound (k.put h .transit).owing where
  heads := (hs.heads.vacate hr hh).congr (by simp [State.dismiss]) (fun j => by simp [State.dismiss])
    fun j => by simp [State.dismiss]
  power := (hs.power.vacate hr).congr (by simp [State.dismiss]) (fun j => by simp [State.dismiss])
    (fun j => by simp [State.dismiss]) (by simp [State.dismiss])
  cache := by
    refine (hs.cache.vacate h).congr (by simp [State.dismiss]) (fun j => by simp [State.dismiss])
      (by simp [State.dismiss]) (by simp [State.dismiss]) (fun j => by simp [State.dismiss]) fun j _ c _ => ?_
    rw [State.dismiss, State.modCarrier_carrierAt _ _ hf.id, Option.map_map]
    congr 1
    funext c
    simp only [Function.comp_apply]
    split
    · rw [hf.marks]
    · rfl
  books := hs.books.dismiss hc hf
  flags := (hs.flags.vacate hh).congr (by simp [State.dismiss]) (by simp [State.dismiss, State.recordsPresent])
    (State.faultPresent_congr fun j => by simp [State.dismiss]) (State.claimPresent_congr fun j => by simp [State.dismiss])
    (by simp [State.dismiss]) (by simp [State.dismiss]) (by simp [State.dismiss]) (by simp [State.dismiss])

end Sys2Proof.Machine
end

section
/-! The record of a cycle is offered and the head comes to rest (R74, R140). -/

namespace Sys2Proof.Machine

variable {s t : State} {k : Flight}

/-! ### A record enters the queue -/

section
variable (s : State) (r : Record)
@[simp] theorem State.enterRecord_ctxAt (j : Head) : (s.enterRecord r).ctxAt j = s.ctxAt j := by
  simp [State.enterRecord, State.reportRecords, State.ctxAt]
@[simp] theorem State.enterRecord_intakeAt (j : Head) : (s.enterRecord r).intakeAt j = s.intakeAt j := by
  simp [State.enterRecord, State.reportRecords, State.intakeAt]
@[simp] theorem State.enterRecord_rowAt (j : Head) : (s.enterRecord r).rowAt j = s.rowAt j := by
  simp [State.enterRecord, State.reportRecords, State.rowAt]
@[simp] theorem State.enterRecord_entryAt (e : EntryIx) : (s.enterRecord r).entryAt e = s.entryAt e := by
  simp [State.enterRecord, State.reportRecords, State.entryAt]
@[simp] theorem State.enterRecord_cache : (s.enterRecord r).cache = s.cache := by
  simp [State.enterRecord, State.reportRecords]
@[simp] theorem State.enterRecord_carriers : (s.enterRecord r).carriers = s.carriers := by
  simp [State.enterRecord, State.reportRecords]
@[simp] theorem State.enterRecord_queue : (s.enterRecord r).queue = s.queue ++ [r] := by
  simp [State.enterRecord, State.reportRecords]
@[simp] theorem State.enterRecord_ring : (s.enterRecord r).ring = s.ring := by
  simp [State.enterRecord, State.reportRecords]
@[simp] theorem State.enterRecord_notices : (s.enterRecord r).notices =
    { s.notices with reported := { s.notices.reported with records := true } } := by
  simp [State.enterRecord, State.reportRecords]
end

theorem State.queueHasRoom_iff : s.queueHasRoom = true ↔ s.queue.length < 32 := by simp [State.queueHasRoom]

/-- What the books of a state gain when a record enters that waited nowhere. -/
theorem State.BooksSound.enterRecord (hb : s.BooksSound k) (hroom : s.queueHasRoom = true) (r : Record) :
    (s.enterRecord r).BooksSound k := by
  have holds (id : CarrierId) : (s.enterRecord r).holdsRecordOf id = s.holdsRecordOf id := by simp [State.holdsRecordOf]
  have waits : (s.enterRecord r).recordsWaiting = s.recordsWaiting := by simp [State.recordsWaiting]
  have at' (id : CarrierId) : (s.enterRecord r).carrierAt id = s.carrierAt id := by simp [State.carrierAt]
  have live (id : CarrierId) : (s.enterRecord r).liveOf id = s.liveOf id := State.liveOf_congr (fun j => by simp) id
  rw [State.queueHasRoom_iff] at hroom
  refine ⟨?_, ?_, ?_, ?_, ?_, fun hw => ?_⟩
  · simpa [State.CarriersDistinct] using hb.carriers
  · simpa [State.AssignmentsNamed, at'] using hb.named
  · simpa [live] using hb.accounts
  · simpa [State.ClosingAccounted, holds, at'] using hb.closing
  · simp only [State.QueueBounded, State.enterRecord_queue, List.length_append, List.length_cons, List.length_nil,
      Config.recordCapacity]
    omega
  · rw [waits] at hw
    have := hb.waiting hw
    rw [State.enterRecord_queue, List.length_append]
    omega

theorem State.FlagsSound.enterRecord (hf : s.FlagsSound) (r : Record) : (s.enterRecord r).FlagsSound :=
  hf.change (by simp) (by simp) (.inl (by simp)) (.inr ⟨by simp, State.faultPresent_congr fun j => by simp⟩)
    (.inr ⟨by simp, State.claimPresent_congr fun j => by simp⟩) (by simp) (by simpa using hf.general) (by simp)

theorem State.Sound.enterRecord (hs : s.Sound k) (hroom : s.queueHasRoom = true) (r : Record) :
    (s.enterRecord r).Sound k where
  heads := hs.heads.congr (by simp) (fun j => by simp) fun j => by simp
  power := hs.power.congr (by simp) (fun j => by simp) (fun j => by simp) (by simp)
  cache := hs.cache.congr (by simp) (fun j => by simp) (by simp) (by simp) (fun j => by simp) fun j _ c _ => by
    simp [State.carrierAt]
  books := hs.books.enterRecord hroom r
  flags := hs.flags.enterRecord r

/-! ### The offer of a joint record (R140) -/

theorem State.recordsWaiting_pos_of_held {h : Head} (hh : (s.ctxAt h).heldRecord.isSome = true) : 0 < s.recordsWaiting := by
  have : h ∈ allHeads.filter fun j => (s.ctxAt j).heldRecord.isSome := by simp [mem_allHeads, hh]
  have := List.length_pos_of_mem this
  unfold State.recordsWaiting
  omega

/-- A record of a carrier that is OPEN is held where the queue is full. -/
theorem State.BooksSound.holdRecord (hb : s.BooksSound k) (hroom : s.queueHasRoom = false) (h : Head) {r : JointRecord}
    {c : CarrierEntry} (hc : s.carrierAt r.carrier = some c) (hopen : c.closing = false) :
    (s.modCtx h fun c => { c with heldRecord := some r }).BooksSound k := by
  have asgs (j : Head) : ((s.modCtx h fun c => { c with heldRecord := some r }).ctxAt j).assignments =
      (s.ctxAt j).assignments := State.modCtx_view HeadCtx.assignments (by rfl) j
  have at' (id : CarrierId) : (s.modCtx h fun c => { c with heldRecord := some r }).carrierAt id = s.carrierAt id := by
    simp [State.carrierAt]
  obtain ⟨hm, hid⟩ := State.carrierAt_mem hc
  refine ⟨?_, ?_, ?_, ⟨fun d hd hcl => ?_, fun j r' hr => ?_⟩, ?_, fun _ => ?_⟩
  · simpa [State.CarriersDistinct] using hb.carriers
  · simpa only [State.AssignmentsNamed, asgs, at'] using hb.named
  · simpa only [State.modCtx_carriers, State.liveOf_congr asgs] using hb.accounts
  · obtain ⟨live, holds⟩ := hb.closing.1 d hd hcl
    refine ⟨live, ?_⟩
    have hne : ¬ r.carrier = d.id := by
      intro he
      have := State.carrierAt_of_mem hb.carriers.2 hd
      rw [← he, hc] at this
      cases this
      rw [hopen] at hcl
      cases hcl
    simp only [State.holdsRecordOf, List.any_eq_false] at holds ⊢
    intro j hj
    rw [State.modCtx_ctxAt]
    split
    · simpa using hne
    · exact holds j hj
  · rw [at']
    rw [State.modCtx_ctxAt] at hr
    split at hr
    · cases hr; rw [hc]; rfl
    · exact hb.closing.2 j r' hr
  · exact hb.queue
  · have : ¬ s.queue.length < 32 := by rw [← State.queueHasRoom_iff, hroom]; simp
    simp only [State.modCtx_queue, Config.recordCapacity]
    omega

theorem State.Sound.offerJoint (hs : s.Sound k) {h : Head} (hm : k.mode h = .transit) {r : JointRecord} {c : CarrierEntry}
    (hc : s.carrierAt r.carrier = some c) (hopen : c.closing = false) : (s.offerJoint h r).Sound k := by
  unfold State.offerJoint
  split
  · next hroom => exact hs.enterRecord hroom _
  · next hroom =>
    have view {α : Type} (v : HeadCtx → α) (hv : ∀ c : HeadCtx, v { c with heldRecord := some r } = v c) (j : Head) :=
      State.modCtx_view (s := s) (h := h) (f := fun c => { c with heldRecord := some r }) v (hv _) j
    refine ⟨?_, ?_, ?_, hs.books.holdRecord (by simpa using hroom) h hc hopen, ?_⟩
    · rw [← Function.update_eq_self h k.mode]
      refine hs.heads.change h (fun _ => by simp) (fun j hj => State.modCtx_ctxAt_of_ne _ hj _) (fun _ _ => by simp) ?_
      have ok := hs.heads h
      rw [hm] at ok ⊢
      simp only [State.modCtx_ctxAt_self, State.modCtx_intakeAt]
      exact ⟨ok.shaped, ok.rested, ok.unwatched, ok.enabled⟩
    · exact hs.power.congr (by simp) (fun j => by simp) (view HeadCtx.loop fun _ => rfl) (by simp)
    · exact hs.cache.congr (by simp) (fun j => by simp) (by simp) (by simp) (view HeadCtx.place fun _ => rfl)
        fun j _ c _ => by simp [State.carrierAt]
    · exact hs.flags.congr (by simp) (by simp [State.recordsPresent])
        (State.faultPresent_congr fun j => by rw [view HeadCtx.state fun _ => rfl])
        (State.claimPresent_congr fun j => by simp) (by simp) (by simp) (by simp) (by simp)

/-! ### The change of one context -/

/-- What a change of the context of one head has to keep for the laws to stand. -/
structure State.Recast (s : State) (k : Flight) (h : Head) (m : HeadMode) (c : HeadCtx) : Prop where
  own : HeadOk m c (s.intakeAt h).staleTimer (s.configAt h).enable
  rest : c.state ≠ .heating → s.AtRest h ∧ c.iAcc = 0 ∧ c.limited = false
  acc : c.iAcc ≤ 256 * (s.configAt h).rating
  asg : (s.ctxAt h).binding.isSome = true ∨ (∃ w ∈ s.cache.wait, w.head = h) →
    c.current.map Current.asg = (s.ctxAt h).current.map Current.asg
  binding : c.binding = (s.ctxAt h).binding
  waits : (∃ w ∈ s.cache.wait, w.head = h) → c.state = .arming
  placed : c.state = .arming → m = .plain → c.binding.isSome = true ∨ ∃ w ∈ s.cache.wait, w.head = h
  requirements : c.state = .arming → m ≠ .homeless → ∀ a ∈ c.current,
    c.reqs = some { s.requirementsFor h a.asg (s.boundDesc h).isSome with settle := c.settle.isNone }
  running : c.state = .heating → m = .plain →
    ∃ w, c.step = some w ∧ w.kind?.isSome = true ∧ (s.boundDesc h).isSome = true
  fault : s.notices.reported.fault = true ∨ (c.state = .faulted ↔ (s.ctxAt h).state = .faulted)

section
variable {h : Head} {m : HeadMode} {f : HeadCtx → HeadCtx}

theorem State.modCtx_boundDesc (hb : (f (s.ctxAt h)).binding = (s.ctxAt h).binding) (j : Head) :
    (s.modCtx h f).boundDesc j = s.boundDesc j :=
  State.boundDesc_congr (State.modCtx_view HeadCtx.binding hb j) fun b _ => by simp

theorem State.PowerSound.recast (hs : s.Sound k) (hc : s.Recast k h m (f (s.ctxAt h))) : (s.modCtx h f).PowerSound := by
  have hp := hs.power
  refine ⟨hp.power, hp.demands, fun j hj => ?_, fun j => ?_, hp.drives, fun g hg hj => ?_⟩
  · by_cases hne : j = h
    · subst hne
      rw [State.modCtx_ctxAt_self] at hj
      obtain ⟨rest, -⟩ := hc.rest hj
      exact ⟨rest.row, rest.claims⟩
    · rw [State.modCtx_ctxAt_of_ne _ hne] at hj
      exact hp.resting j hj
  · obtain ⟨h1, h2, h3⟩ := hp.integrators j
    by_cases hne : j = h
    · subst hne
      rw [State.modCtx_ctxAt_self]
      exact ⟨hc.acc, h2, fun hj => (hc.rest hj).2⟩
    · rw [State.modCtx_ctxAt_of_ne _ hne]
      exact ⟨h1, h2, h3⟩
  · by_cases hne : g.head = h
    · rw [hne, State.modCtx_ctxAt_self] at hj
      exact (hc.rest hj).1.frames g hg hne
    · rw [State.modCtx_ctxAt_of_ne _ hne] at hj
      exact hp.restingFrames g hg hj

theorem State.CacheSound.recast (hs : s.Sound k) (hc : s.Recast k h m (f (s.ctxAt h))) :
    (s.modCtx h f).CacheSound (k.put h m) := by
  have cs := hs.cache
  have binding (j : Head) : ((s.modCtx h f).ctxAt j).binding = (s.ctxAt j).binding :=
    State.modCtx_view HeadCtx.binding hc.binding j
  have asg (j : Head) (hj : (s.ctxAt j).binding.isSome = true ∨ ∃ w ∈ s.cache.wait, w.head = j) :
      ((s.modCtx h f).ctxAt j).current.map Current.asg = (s.ctxAt j).current.map Current.asg := by
    by_cases hne : j = h
    · subst hne; rw [State.modCtx_ctxAt_self]; exact hc.asg hj
    · rw [State.modCtx_ctxAt_of_ne _ hne]
  have desc := State.modCtx_boundDesc hc.binding
  have project {α : Type} (g : Assignment → α) (j : Head)
      (hj : (s.ctxAt j).binding.isSome = true ∨ ∃ w ∈ s.cache.wait, w.head = j) :
      ((s.modCtx h f).ctxAt j).current.map (fun c => g c.asg) = (s.ctxAt j).current.map fun c => g c.asg := by
    have := congrArg (Option.map g) (asg j hj)
    simpa [Option.map_map, Function.comp_def] using this
  refine ⟨?_, ?_, ?_, fun j b hb => ?_, ⟨cs.waiters.1, fun w hw => ?_⟩, ?_, ?_, cs.owes, fun j hj hm => ?_,
    fun j hj hm a ha => ?_, fun j hj hm => ?_⟩
  · simpa only [State.RecencyPermutation, State.modCtx_entryAt] using cs.recency
  · simpa only [State.OneMatch, State.modCtx_entryAt] using cs.oneMatch
  · simpa only [State.UsersAreBound, State.modCtx_entryAt, State.boundHeads_congr binding] using cs.users
  · rw [binding] at hb
    have requested : (s.modCtx h f).requestedId j = s.requestedId j := by
      rw [State.requestedId, State.requestedId, project (fun a => a.classId) j (.inl (by rw [Option.mem_def.mp hb]; rfl))]
    rw [requested, State.modCtx_entryAt]
    exact cs.bindings j b hb
  · obtain ⟨arming, unbound, current⟩ := cs.waiters.2 w hw
    refine ⟨?_, by rw [binding]; exact unbound, by
      rw [project (fun a => (a.classId, a.refresh)) w.head (.inr ⟨w, hw, rfl⟩)]; exact current⟩
    by_cases hne : w.head = h
    · rw [hne, State.modCtx_ctxAt_self]; exact hc.waits ⟨w, hw, hne⟩
    · rw [State.modCtx_ctxAt_of_ne _ hne]; exact arming
  · simpa only [State.modCtx_entryAt] using cs.descriptors
  · simpa only [State.modCtx_entryAt, State.modCtx_cache] using cs.noVictim
  · by_cases hne : j = h
    · subst hne
      rw [State.modCtx_ctxAt_self] at hj ⊢
      exact hc.placed hj (by simpa using hm)
    · rw [State.modCtx_ctxAt_of_ne _ hne] at hj ⊢
      exact cs.placed j hj (by simpa [hne] using hm)
  · rw [desc]
    by_cases hne : j = h
    · subst hne
      rw [State.modCtx_ctxAt_self] at hj ha ⊢
      rw [hc.requirements hj (by simpa using hm) a ha]
      simp [State.requirementsFor, State.carrierAt]
    · rw [State.modCtx_ctxAt_of_ne _ hne] at hj ha ⊢
      rw [State.requirementsFor_congr (s := s) (by simp [State.carrierAt]) (by simp)
        (by rw [State.modCtx_ctxAt_of_ne _ hne])]
      exact cs.requirements j hj (by simpa [hne] using hm) a ha
  · by_cases hne : j = h
    · subst hne
      rw [State.modCtx_ctxAt_self] at hj
      obtain ⟨w, step, kind, bound⟩ := hc.running hj (by simpa using hm)
      obtain ⟨d, hd⟩ := Option.isSome_iff_exists.mp bound
      obtain ⟨kd, hk⟩ := Option.isSome_iff_exists.mp kind
      simp [State.runningStep, State.runningKind, State.modCtx_ctxAt_self, step, desc, hd, hk]
    · rw [State.modCtx_ctxAt_of_ne _ hne] at hj
      rw [State.runningStep_congr (s := s) (by rw [State.modCtx_ctxAt_of_ne _ hne]) (desc j)]
      exact cs.running j hj (by simpa [hne] using hm)

/-- The books do not see the conditions of the heads. -/
theorem State.BooksSound.put (hb : s.BooksSound k) (h : Head) (m : HeadMode) : s.BooksSound (k.put h m) :=
  ⟨hb.carriers, hb.named, hb.accounts, hb.closing, hb.queue, hb.waiting⟩

theorem State.BooksSound.recast (hb : s.BooksSound k) (work : (f (s.ctxAt h)).assignments = (s.ctxAt h).assignments)
    (held : (f (s.ctxAt h)).heldRecord = (s.ctxAt h).heldRecord) : (s.modCtx h f).BooksSound k := by
  have asgs (j : Head) : ((s.modCtx h f).ctxAt j).assignments = (s.ctxAt j).assignments :=
    State.modCtx_view HeadCtx.assignments work j
  have records (j : Head) : ((s.modCtx h f).ctxAt j).heldRecord = (s.ctxAt j).heldRecord :=
    State.modCtx_view HeadCtx.heldRecord held j
  have at' (id : CarrierId) : (s.modCtx h f).carrierAt id = s.carrierAt id := by simp [State.carrierAt]
  refine ⟨hb.carriers, ?_, ?_, ?_, hb.queue, ?_⟩
  · simpa only [State.AssignmentsNamed, asgs, at'] using hb.named
  · simpa only [State.modCtx_carriers, State.liveOf_congr asgs] using hb.accounts
  · simpa only [State.ClosingAccounted, records, State.holdsRecordOf, State.modCtx_carriers, at'] using hb.closing
  · simpa only [State.recordsWaiting, records, State.modCtx_carriers, State.modCtx_queue] using hb.waiting

theorem State.FlagsSound.recast (hf : s.FlagsSound) (hc : s.Recast k h m (f (s.ctxAt h))) : (s.modCtx h f).FlagsSound := by
  refine hf.change rfl rfl (.inr ⟨rfl, rfl⟩) ?_ (.inr ⟨rfl, State.claimPresent_congr fun _ => rfl⟩) rfl hf.general rfl
  refine hc.fault.imp id fun e => ⟨rfl, State.faultPresent_congr fun j => ?_⟩
  by_cases hne : j = h
  · rw [hne, State.modCtx_ctxAt_self]; exact e
  · rw [State.modCtx_ctxAt_of_ne _ hne]

/-- The laws after a change of one context, with the books seen to apart. -/
theorem State.Sound.recastBooks (hs : s.Sound k) (hc : s.Recast k h m (f (s.ctxAt h))) (hb : (s.modCtx h f).BooksSound k) :
    (s.modCtx h f).Sound (k.put h m) where
  heads := hs.heads.change h (fun _ => rfl) (fun j hj => State.modCtx_ctxAt_of_ne _ hj _) (fun _ _ => rfl)
    (by rw [State.modCtx_ctxAt_self]; exact hc.own)
  power := State.PowerSound.recast hs hc
  cache := State.CacheSound.recast hs hc
  books := hb.put h m
  flags := hs.flags.recast hc

/-- The laws after a change of one context that keeps its assignments and the record it holds. -/
theorem State.Sound.recast (hs : s.Sound k) (hc : s.Recast k h m (f (s.ctxAt h)))
    (work : (f (s.ctxAt h)).assignments = (s.ctxAt h).assignments := by rfl)
    (held : (f (s.ctxAt h)).heldRecord = (s.ctxAt h).heldRecord := by rfl) : (s.modCtx h f).Sound (k.put h m) :=
  hs.recastBooks hc (hs.books.recast work held)

end

/-! ### Coming to rest -/

theorem State.Sound.reportFault (hs : s.Sound k) : s.reportFault.Sound k where
  heads := hs.heads.congr rfl (fun _ => rfl) fun _ => rfl
  power := hs.power.congr rfl (fun _ => rfl) (fun _ => rfl) rfl
  cache := hs.cache.congr rfl (fun _ => rfl) rfl rfl (fun _ => rfl) fun _ _ _ _ => rfl
  books := hs.books.congr rfl rfl fun _ => rfl
  flags := hs.flags.change rfl rfl (.inr ⟨rfl, rfl⟩) (.inl rfl) (.inr ⟨rfl, State.claimPresent_congr fun _ => rfl⟩) rfl
    hs.flags.general rfl

theorem State.modCtx_reportFault (s : State) (h : Head) (f : HeadCtx → HeadCtx) :
    (s.modCtx h f).reportFault = s.reportFault.modCtx h f := rfl

/-- A head that has left its cycle or assignment comes to rest in a state that is neither ARMING nor HEATING. -/
theorem State.Sound.restAs (hs : s.Sound k) {h : Head} (hm : k.mode h = .transit) {st : HeadState}
    {cause : Option FaultCause} (ha : st ≠ .arming) (hh : st ≠ .heating) (hd : st ≠ .disabled)
    (shape : ({ s.ctxAt h with state := st, cause } : HeadCtx).Shaped)
    (fault : s.notices.reported.fault = true ∨ st ≠ .faulted) :
    (s.modCtx h fun c => { c with state := st, cause }).Sound (k.put h .plain) := by
  have ok := hs.heads h
  rw [hm] at ok
  have idle : (s.ctxAt h).state = .idle := ok.shaped.1
  have cold : (s.ctxAt h).state ≠ .heating := by rw [idle]; decide
  have rest := hs.atRest cold
  refine hs.recast
    { own := ⟨shape, fun _ => ok.rested cold, fun _ => rest.stale, fun he => absurd he hd, fun he => ?_⟩
      rest := fun _ => ⟨rest, rest.acc, rest.limited⟩
      acc := (hs.power.integrators h).1
      asg := fun _ => rfl, binding := rfl
      waits := fun ⟨w, hw, e⟩ => ?_
      placed := fun e => absurd e ha
      requirements := fun e => absurd e ha
      running := fun e => absurd e hh
      fault := fault.imp_right fun hf => ⟨fun e => absurd e hf, fun e => ?_⟩ }
  · have := ok.enabled.mpr he
    rw [idle] at this
    cases this
  · have := (hs.cache.waiters.2 w hw).1
    rw [e, idle] at this
    cases this
  · rw [idle] at e
    cases e

end Sys2Proof.Machine
end

section
/-! The bind request of a head and what it leaves of the Class Cache (R27 to R32). -/

namespace Sys2Proof.Machine

variable {s t : State} {k : Flight}

/-! ### The entries after a touch and a binding (R27, R28) -/

theorem State.touch_entryAt (s : State) (e f : EntryIx) :
    (s.touch e).entryAt f = { s.entryAt f with recency := s.touchedAt e f } := by
  have : (s.touch e).entryAt f = if f = e then { s.entryAt f with recency := 0 }
      else if (s.entryAt f).recency < (s.entryAt e).recency then { s.entryAt f with recency := (s.entryAt f).recency + 1 }
      else s.entryAt f := by
    simp [State.touch, State.modCache, State.entryAt]
  rw [this, State.touchedAt]
  split
  · rfl
  · split <;> rfl

/-- The entries once a head is bound to one of them. -/
def State.hitAt (s : State) (e f : EntryIx) : Entry :=
  { s.entryAt f with recency := s.touchedAt e f, users := (s.entryAt f).users + if f = e then 1 else 0 }

theorem State.bindTo_entryAt (s : State) (h : Head) (e : EntryIx) (v : Nat) (f : EntryIx) :
    (s.bindTo h e v).entryAt f = s.hitAt e f := by
  rw [State.bindTo, State.touch_entryAt, State.hitAt]
  have same (g : EntryIx) : (((s.modCtx h fun c => { c with binding := some { entry := e, variant := v } }).modEntry e
      fun x => { x with users := x.users + 1 }).entryAt g) =
      { s.entryAt g with users := (s.entryAt g).users + if g = e then 1 else 0 } := by
    rw [State.modEntry_entryAt]
    split
    · next hg => rw [hg]; rfl
    · rfl
  simp only [State.touchedAt, same]

theorem State.bindTo_ctxAt (s : State) (h : Head) (e : EntryIx) (v : Nat) (j : Head) :
    (s.bindTo h e v).ctxAt j =
      if j = h then { s.ctxAt h with binding := some { entry := e, variant := v } } else s.ctxAt j := by
  rw [← State.modCtx_ctxAt s h j fun c => { c with binding := some { entry := e, variant := v } }]
  rfl

/-- A touch keeps the recency positions a permutation (R27). -/
theorem State.recency_touchedAt (hs : s.RecencyPermutation) (e : EntryIx) :
    (∀ f, s.touchedAt e f < 8) ∧ ∀ f g, s.touchedAt e f = s.touchedAt e g → f = g := by
  obtain ⟨bound, inj⟩ := hs
  have pos (f : EntryIx) : s.touchedAt e f = 0 ↔ f = e := by
    unfold State.touchedAt
    refine ⟨fun h => ?_, fun h => if_pos h⟩
    by_contra hf
    rw [if_neg hf] at h
    split at h
    · omega
    · exact hf (inj _ _ (by omega))
  refine ⟨fun f => ?_, fun f g h => ?_⟩
  · have := bound e
    have := bound f
    unfold State.touchedAt
    split
    · omega
    · split <;> omega
  · by_cases hf : f = e
    · rw [hf, eq_comm, ← pos g, ← h, pos f]; exact hf
    · by_cases hg : g = e
      · exact absurd ((pos f).mp (h.trans ((pos g).mpr hg))) hf
      · simp only [State.touchedAt, if_neg hf, if_neg hg] at h
        refine inj f g ?_
        have hef : (s.entryAt f).recency ≠ (s.entryAt e).recency := fun x => hf (inj _ _ x)
        have heg : (s.entryAt g).recency ≠ (s.entryAt e).recency := fun x => hg (inj _ _ x)
        split at h <;> split at h <;> omega

/-! ### An entry no head is bound to -/

theorem State.CacheSound.unbound (cs : s.CacheSound k) {e : EntryIx} (hu : (s.entryAt e).users = 0) (h : Head) :
    ∀ b ∈ (s.ctxAt h).binding, b.entry ≠ e := by
  intro b hb he
  have : h ∈ s.boundHeads e := by
    rw [State.boundHeads, List.mem_filter]
    exact ⟨mem_allHeads h, by rw [Option.mem_def.mp hb]; simpa using he⟩
  have := List.length_pos_of_mem this
  have := cs.users e
  omega

/-- An idle entry has no users. -/
theorem State.CacheSound.users_of_idle (cs : s.CacheSound k) {e : EntryIx} (hi : (s.entryAt e).idle = true) :
    (s.entryAt e).users = 0 := by
  by_contra hu
  rw [cs.users e] at hu
  obtain ⟨h, hh⟩ := List.exists_mem_of_length_pos (Nat.pos_of_ne_zero hu)
  rw [State.boundHeads, List.mem_filter, Option.any_eq_true] at hh
  obtain ⟨-, b, hb, he⟩ := hh
  have fits := cs.bindings h b hb
  rw [of_decide_eq_true he] at fits
  unfold Entry.idle at hi
  rcases Bool.or_eq_true _ _ ▸ hi with hi | hi
  · cases hbody : (s.entryAt e).body with
    | invalid => rw [hbody] at fits; exact fits
    | fetching tag n => simp [hbody, EntryBody.isInvalid, EntryBody.cover] at hi
    | resident tag d => simp [hbody, EntryBody.isInvalid, EntryBody.cover] at hi
  · have hz : (s.entryAt e).users = 0 := of_decide_eq_true (Bool.and_eq_true _ _ ▸ hi).2
    rw [cs.users e] at hz
    omega

/-- A change of an entry that no head is bound to, and that may be a victim only where a retry is owed. -/
theorem State.CacheSound.modEntry (cs : s.CacheSound k) {e : EntryIx} {f : Entry → Entry}
    (hu : (s.entryAt e).users = 0) (users : (f (s.entryAt e)).users = 0)
    (recency : (f (s.entryAt e)).recency = (s.entryAt e).recency) (desc : (f (s.entryAt e)).body.DescClamped)
    (one : (s.modEntry e f).OneMatch) (owed : s.cache.wait ≠ [] → s.cache.retryOwed = true) :
    (s.modEntry e f).CacheSound k := by
  have keep {g : EntryIx} (hg : g ≠ e) : (s.modEntry e f).entryAt g = s.entryAt g := State.modEntry_entryAt_of_ne _ hg _
  have position (g : EntryIx) : ((s.modEntry e f).entryAt g).recency = (s.entryAt g).recency := by
    by_cases hg : g = e
    · subst hg; rw [State.modEntry_entryAt_self, recency]
    · rw [keep hg]
  have boundDesc (h : Head) : (s.modEntry e f).boundDesc h = s.boundDesc h :=
    State.boundDesc_congr rfl fun b hb => by rw [keep (cs.unbound hu h b hb)]
  refine ⟨?_, one, fun g => ?_, fun h b hb => ?_, cs.waiters, fun g => ?_, fun hw => .inr (owed hw), cs.owes, cs.placed,
    fun h hh hm c hc => ?_, fun h hh hm => ?_⟩
  · simpa only [State.RecencyPermutation, position] using cs.recency
  · have bound : (s.modEntry e f).boundHeads g = s.boundHeads g := rfl
    rw [bound]
    by_cases hg : g = e
    · subst hg
      rw [State.modEntry_entryAt_self, users, ← hu]
      exact cs.users g
    · rw [keep hg]; exact cs.users g
  · rw [keep (cs.unbound hu h b hb)]
    exact cs.bindings h b hb
  · by_cases hg : g = e
    · subst hg; rw [State.modEntry_entryAt_self]; exact desc
    · rw [keep hg]; exact cs.descriptors g
  · rw [boundDesc]
    exact cs.requirements h hh hm c hc
  · exact (State.runningStep_congr (s := s) (t := s.modEntry e f) rfl (boundDesc h)).symm ▸ cs.running h hh hm

/-- A change inside the Class Cache. -/
theorem State.Sound.modCache (hs : s.Sound k) {k' : Flight} {f : ClassCache → ClassCache}
    (hc : (s.modCache f).CacheSound k') (mode : k'.mode = k.mode) (unplaced : k'.unplaced = k.unplaced)
    (slots : k'.slots = k.slots) : (s.modCache f).Sound k' where
  heads := by rw [mode]; exact hs.heads.congr rfl (fun _ => rfl) fun _ => rfl
  power := hs.power.congr rfl (fun _ => rfl) (fun _ => rfl) rfl
  cache := hc
  books := ⟨hs.books.carriers, hs.books.named, by rw [unplaced]; exact hs.books.accounts, hs.books.closing, hs.books.queue,
    by rw [slots]; exact hs.books.waiting⟩
  flags := hs.flags.congr rfl rfl rfl (State.claimPresent_congr fun _ => rfl) rfl rfl rfl rfl

theorem State.CacheSound.oweRetry (cs : s.CacheSound k) : s.oweRetry.CacheSound k.owing :=
  ⟨cs.recency, cs.oneMatch, cs.users, cs.bindings, cs.waiters, cs.descriptors, fun _ => .inr rfl, fun _ => rfl, cs.placed,
    cs.requirements, cs.running⟩

theorem State.Sound.oweRetry (hs : s.Sound k) : s.oweRetry.Sound k.owing := hs.modCache hs.cache.oweRetry rfl rfl rfl

/-- An entry without users becomes INVALID. -/
theorem State.Sound.invalidate (hs : s.Sound k) {e : EntryIx} (hu : (s.entryAt e).users = 0) :
    (s.invalidate e).Sound k.owing := by
  have order : s.invalidate e = s.oweRetry.modEntry e fun x => { x with body := .invalid, users := 0 } := rfl
  rw [order]
  suffices one : (s.oweRetry.modEntry e fun x => { x with body := .invalid, users := 0 }).OneMatch from
    hs.oweRetry.modCache (hs.oweRetry.cache.modEntry (f := fun x => { x with body := .invalid, users := 0 }) hu rfl rfl trivial one fun _ => rfl) rfl rfl rfl
  intro c f g hf hg
  rw [State.modEntry_entryAt] at hf hg
  split at hf
  · cases hf
  · split at hg
    · cases hg
    · exact hs.cache.oneMatch c f g hf hg

/-- The entry body of a fetch matches its own id alone. -/
theorem EntryBody.fetching_matches {c i : ClassId} {n : Nat} : (EntryBody.fetching c n).matchesId i = true ↔ i = c := by
  simp [EntryBody.matchesId, EntryBody.cover]

/-- A victim becomes FETCHING for a class no entry matches. -/
theorem State.Sound.fetchAt (hs : s.Sound k) {c : ClassId} (hmiss : ∀ e, (s.entryAt e).body.matchesId c = false)
    {v : EntryIx} (hv : s.victim = some v) (n : Nat) :
    (s.modEntry v fun x => { x with body := .fetching c n, users := 0 }).Sound k := by
  have idle := State.victim_idle hv
  suffices one : (s.modEntry v fun x => { x with body := .fetching c n, users := 0 }).OneMatch from
    hs.modCache (hs.cache.modEntry (f := fun x => { x with body := .fetching c n, users := 0 }) (hs.cache.users_of_idle idle) rfl rfl trivial one fun hw =>
      (hs.cache.noVictim hw).resolve_left fun hall => by rw [hall v] at idle; cases idle) rfl rfl rfl
  intro i f g hf hg
  rw [State.modEntry_entryAt] at hf hg
  split at hf <;> split at hg
  · next h1 h2 => rw [h1, h2]
  · rw [EntryBody.fetching_matches] at hf
    rw [hf, hmiss] at hg
    cases hg
  · rw [EntryBody.fetching_matches] at hg
    rw [hg, hmiss] at hf
    cases hf
  · exact hs.cache.oneMatch i f g hf hg

/-! ### The binding of a head in ARMING (R28) -/

theorem State.bindTo_boundDesc (s : State) (h : Head) (e : EntryIx) (v : Nat) (j : Head) :
    (s.bindTo h e v).boundDesc j = if j = h then (s.entryAt e).body.desc? else s.boundDesc j := by
  unfold State.boundDesc
  rw [State.bindTo_ctxAt]
  split
  · simp [State.bindTo_entryAt, State.hitAt]
  · congr 1
    funext b
    rw [State.bindTo_entryAt, State.hitAt]

/-- A head whose bind request is in hand is bound to an entry of its class. -/
theorem State.Sound.bindTo (hs : s.Sound k) {h : Head} (hm : k.mode h = .homeless) (hb : (s.ctxAt h).binding = none)
    {e : EntryIx} {v : Nat} (fits : Binding.Fits { entry := e, variant := v } (s.entryAt e).body (s.requestedId h))
    (hw : ∀ w ∈ s.cache.wait, w.head ≠ h) : (s.bindTo h e v).Sound k := by
  have ok := hs.heads h
  rw [hm] at ok
  have arming : (s.ctxAt h).state = .arming := ok.shaped.1
  have view {α : Type} (g : HeadCtx → α) (hg : ∀ c b, g { c with binding := b } = g c) (j : Head) :
      g ((s.bindTo h e v).ctxAt j) = g (s.ctxAt j) := by
    rw [State.bindTo_ctxAt]
    split
    · next hj => rw [hj, hg]
    · rfl
  have others {j : Head} (hj : j ≠ h) : (s.bindTo h e v).ctxAt j = s.ctxAt j := by rw [State.bindTo_ctxAt, if_neg hj]
  have body (f : EntryIx) : ((s.bindTo h e v).entryAt f).body = (s.entryAt f).body := by
    rw [State.bindTo_entryAt, State.hitAt]
  have cs := hs.cache
  refine ⟨?_, ?_, ⟨?_, ?_, fun f => ?_, fun j b hj => ?_, ⟨cs.waiters.1, fun w hwm => ?_⟩, ?_, fun hwt => ?_, cs.owes,
    fun j hj hmj => ?_, fun j hj hmj c hc => ?_, fun j hj hmj => ?_⟩, ?_, ?_⟩
  · rw [← Function.update_eq_self h k.mode]
    refine hs.heads.change h (fun _ => rfl) (fun j hj => others hj) (fun _ _ => rfl) ?_
    rw [State.bindTo_ctxAt, if_pos rfl, hm]
    exact ⟨ok.shaped, ok.rested, ok.unwatched, ok.enabled⟩
  · exact hs.power.congr rfl (fun _ => rfl) (view HeadCtx.loop fun _ _ => rfl) rfl
  · obtain ⟨bound, inj⟩ := State.recency_touchedAt cs.recency e
    simp only [State.RecencyPermutation, State.bindTo_entryAt, State.hitAt]
    exact ⟨bound, inj⟩
  · simpa only [State.OneMatch, body] using cs.oneMatch
  · have count := State.boundHeads_length_change (s := s) (t := s.bindTo h e v) h (fun j hj => by rw [others hj]) f
    rw [State.bindTo_ctxAt, if_pos rfl, hb] at count
    rw [State.bindTo_entryAt, State.hitAt]
    have users := cs.users f
    by_cases hf : e = f
    · subst hf; simp at count ⊢; omega
    · have hf' : ¬ f = e := fun x => hf x.symm
      simp [hf, hf'] at count ⊢; omega
  · rw [State.requestedId_congr (s := s) (view HeadCtx.current (fun _ _ => rfl) j), body]
    rw [State.bindTo_ctxAt] at hj
    split at hj
    · next hjh => cases hj; rw [hjh]; exact fits
    · exact cs.bindings j b hj
  · rw [others (hw w hwm)]
    exact cs.waiters.2 w hwm
  · simpa only [body] using cs.descriptors
  · refine (cs.noVictim hwt).imp_left fun hall f => ?_
    have := hall f
    rw [State.bindTo_entryAt, State.hitAt]
    unfold Entry.idle at this ⊢
    simp only [Bool.or_eq_false_iff, Bool.and_eq_false_iff, decide_eq_false_iff_not] at this ⊢
    exact ⟨this.1, this.2.imp_right fun hu => by omega⟩
  · rw [view HeadCtx.state fun _ _ => rfl] at hj
    have hjh : j ≠ h := by rintro rfl; rw [hm] at hmj; cases hmj
    rw [others hjh]
    exact cs.placed j hj hmj
  · have hjh : j ≠ h := by rintro rfl; exact hmj hm
    rw [others hjh] at hj hc ⊢
    have same : (s.bindTo h e v).requirementsFor j c.asg (s.boundDesc j).isSome =
        s.requirementsFor j c.asg (s.boundDesc j).isSome :=
      State.requirementsFor_congr rfl (State.interlock_of_base (s.bindTo_base h e v)) (by rw [others hjh])
    rw [State.bindTo_boundDesc, if_neg hjh, same]
    exact cs.requirements j hj hmj c hc
  · have hjh : j ≠ h := by rintro rfl; rw [hm] at hmj; cases hmj
    rw [State.runningStep_congr (s := s) (by rw [others hjh]) (by rw [State.bindTo_boundDesc, if_neg hjh])]
    rw [others hjh] at hj
    exact cs.running j hj hmj
  · exact hs.books.congr rfl rfl (view HeadCtx.work fun _ _ => rfl)
  · exact hs.flags.congr rfl rfl (State.faultPresent_congr fun j => by rw [view HeadCtx.state fun _ _ => rfl])
      (State.claimPresent_congr fun _ => rfl) rfl rfl rfl rfl

/-! ### The CLASSFETCH (R31, R158) -/

theorem State.offerFetch_cases (s : State) (c : ClassId) :
    s.offerFetch c = s ∨ s.ring.hasPlace = true ∧ ∃ f : Frame, f.kind = 0x06 ∧ s.offerFetch c = s.placeGeneral f := by
  unfold State.offerFetch
  split
  · next hr =>
    rw [State.ccReachable, Bool.and_eq_true] at hr
    exact .inr ⟨hr.2, _, rfl, rfl⟩
  · exact .inl rfl

theorem State.Sound.placeGeneral (hs : s.Sound k) (hp : s.ring.hasPlace = true) (f : Frame) :
    (s.placeGeneral f).Sound k where
  heads := hs.heads.congr rfl (fun _ => rfl) fun _ => rfl
  power := hs.power.congr rfl (fun _ => rfl) (fun _ => rfl) rfl
  cache := hs.cache.congr rfl (fun _ => rfl) rfl rfl (fun _ => rfl) fun _ _ _ _ => rfl
  books := hs.books.congr rfl rfl fun _ => rfl
  flags := by
    refine hs.flags.change rfl rfl (.inr ⟨rfl, rfl⟩) (.inr ⟨rfl, rfl⟩)
      (.inr ⟨rfl, State.claimPresent_congr fun _ => rfl⟩) rfl ?_ rfl
    have : s.ring.general.length + s.ring.reserved.toNat < Config.generalCapacity := by simpa [RingPort.hasPlace] using hp
    simp only [State.placeGeneral, State.modRing_ring, List.length_append, List.length_cons, List.length_nil]
    omega

theorem State.Sound.offerFetch (hs : s.Sound k) (c : ClassId) : (s.offerFetch c).Sound k := by
  rcases s.offerFetch_cases c with e | ⟨hp, f, -, e⟩
  · rw [e]; exact hs
  · rw [e]; exact hs.placeGeneral hp f

end Sys2Proof.Machine
end

section
/-! Lookups, the wait-list retry and the promotion of an assignment (R28, R30, R32, R33, R50). -/

namespace Sys2Proof.Machine

variable {s t : State} {k : Flight}

/-! ### The outcomes of a lookup (R28 to R30) -/

/-- A victim is made FETCHING and the head is bound to it, the CLASSFETCH not yet offered. -/
def State.fetched (s : State) (h : Head) (c : ClassId) (v : EntryIx) : State :=
  (s.modEntry v fun x => { x with body := .fetching c s.cache.fetchLimit, users := 0 }).bindTo h v 0

theorem State.fetchInto_eq (s : State) (h : Head) (c : ClassId) (v : EntryIx) :
    s.fetchInto h c v = (s.fetched h c v).offerFetch c := rfl

theorem State.matchEntry_some {c : ClassId} {e : EntryIx} (h : s.matchEntry c = some e) :
    (s.entryAt e).body.matchesId c = true := by simpa using List.find?_some h

theorem State.matchEntry_none_iff {c : ClassId} :
    s.matchEntry c = none ↔ ∀ e, (s.entryAt e).body.matchesId c = false := by
  simp [State.matchEntry, mem_allEntries]

theorem State.matchEntry_of_one (h : s.OneMatch) {c : ClassId} {e : EntryIx}
    (he : (s.entryAt e).body.matchesId c = true) : s.matchEntry c = some e := by
  cases hm : s.matchEntry c with
  | none => rw [State.matchEntry_none_iff.mp hm e] at he; cases he
  | some f => rw [h c e f he (State.matchEntry_some hm)]

/-- What a lookup does, case by case: a hit on a RESIDENT entry, a hit on a FETCHING one, the refresh of an idle entry, or
a miss. -/
inductive State.Lookup (s : State) (h : Head) (c : ClassId) (refresh : Bool) : Option Bound → Prop where
  | resident {e tag d} (body : (s.entryAt e).body = .resident tag d) (hit : (s.entryAt e).body.matchesId c = true)
      (keep : ¬ (refresh = true ∧ (s.entryAt e).users = 0)) :
      Lookup s h c refresh (some { state := s.bindTo h e (variantOf c tag), resident := true })
  | fetching {e n} (body : (s.entryAt e).body = .fetching c n) :
      Lookup s h c refresh (some { state := s.bindTo h e 0, resident := false })
  | refreshed {e v} (asked : refresh = true) (resident : (s.entryAt e).body.isResident = true)
      (hit : (s.entryAt e).body.matchesId c = true) (users : (s.entryAt e).users = 0)
      (victim : (s.invalidate e).victim = some v) :
      Lookup s h c refresh (some { state := (s.invalidate e).fetchInto h c v, resident := false })
  | missed {v} (miss : ∀ e, (s.entryAt e).body.matchesId c = false) (victim : s.victim = some v) :
      Lookup s h c refresh (some { state := s.fetchInto h c v, resident := false })
  | starved (miss : ∀ e, (s.entryAt e).body.matchesId c = false) (victim : s.victim = none) : Lookup s h c refresh none

theorem State.invalidate_entryAt (s : State) (e f : EntryIx) :
    (s.invalidate e).entryAt f = if f = e then { s.entryAt e with body := .invalid, users := 0 } else s.entryAt f := by
  have : (s.invalidate e).entryAt f = (s.modEntry e fun x => { x with body := .invalid, users := 0 }).entryAt f := rfl
  rw [this, State.modEntry_entryAt]

theorem State.lookup (s : State) (h : Head) (c : ClassId) (refresh : Bool) :
    s.Lookup h c refresh (s.tryBind h c refresh) := by
  unfold State.tryBind
  cases hm : s.matchEntry c with
  | none =>
    have miss := State.matchEntry_none_iff.mp hm
    cases hv : s.victim with
    | none => simpa only [State.bindMiss, hv, Option.map_none] using .starved miss hv
    | some v => simpa only [State.bindMiss, hv, Option.map_some] using .missed miss hv
  | some e =>
    have hit := State.matchEntry_some hm
    cases hb : (s.entryAt e).body with
    | invalid => simp [hb, EntryBody.matchesId, EntryBody.cover] at hit
    | fetching tag n =>
      have : tag = c := by rw [hb, EntryBody.fetching_matches] at hit; exact hit.symm
      subst this
      simp only [hb]
      exact .fetching hb
    | resident tag d =>
      by_cases hr : refresh = true ∧ (s.entryAt e).users = 0
      · obtain ⟨asked, users⟩ := hr
        simp only [hb, asked, users, decide_true, Bool.and_self, if_true]
        cases hv : (s.invalidate e).victim with
        | none =>
          have := State.victim_none_iff.mp hv e
          rw [State.invalidate_entryAt, if_pos rfl] at this
          simp [Entry.idle, EntryBody.isInvalid, EntryBody.cover] at this
        | some v =>
          simpa only [State.bindMiss, hv, Option.map_some, asked] using
            State.Lookup.refreshed rfl (by simp [hb, EntryBody.isResident, EntryBody.desc?]) hit users hv
      · have : (refresh && decide ((s.entryAt e).users = 0)) = false := by
          rw [← Bool.not_eq_true, Bool.and_eq_true, decide_eq_true_eq]; exact hr
        simp only [hb, this, Bool.false_eq_true, if_false]
        exact .resident hb hit hr

/-! ### A lookup keeps the laws -/

/-- What a lookup that binds leaves beside the cache entries: the head bound, and at most a CLASSFETCH in the queue. -/
structure State.BoundFrom (s : State) (h : Head) (b : Bound) : Prop where
  ctx : ∃ x : Binding, ∀ j, b.state.ctxAt j = if j = h then { s.ctxAt h with binding := some x } else s.ctxAt j
  desc : (b.state.boundDesc h).isSome = b.resident
  wait : b.state.cache.wait = s.cache.wait
  carriers : b.state.carriers = s.carriers
  base : b.state.base = s.base

theorem State.offerFetch_view {α : Type} (view : State → α) (hv : ∀ u f, view (u.placeGeneral f) = view u) (s : State)
    (c : ClassId) : view (s.offerFetch c) = view s := by
  rcases s.offerFetch_cases c with e | ⟨-, f, -, e⟩
  · rw [e]
  · rw [e, hv]

@[simp] theorem State.offerFetch_ctxAt (s : State) (c : ClassId) (j : Head) : (s.offerFetch c).ctxAt j = s.ctxAt j :=
  State.offerFetch_view (fun u => u.ctxAt j) (fun _ _ => rfl) s c
@[simp] theorem State.offerFetch_entryAt (s : State) (c : ClassId) (e : EntryIx) :
    (s.offerFetch c).entryAt e = s.entryAt e := State.offerFetch_view (fun u => u.entryAt e) (fun _ _ => rfl) s c
@[simp] theorem State.offerFetch_cache (s : State) (c : ClassId) : (s.offerFetch c).cache = s.cache :=
  State.offerFetch_view State.cache (fun _ _ => rfl) s c
@[simp] theorem State.offerFetch_carriers (s : State) (c : ClassId) : (s.offerFetch c).carriers = s.carriers :=
  State.offerFetch_view State.carriers (fun _ _ => rfl) s c
@[simp] theorem State.offerFetch_boundDesc (s : State) (c : ClassId) (h : Head) :
    (s.offerFetch c).boundDesc h = s.boundDesc h := State.offerFetch_view (fun u => u.boundDesc h) (fun _ _ => rfl) s c

theorem State.bindTo_boundFrom (s : State) (h : Head) (e : EntryIx) (v : Nat) {r : Bool}
    (hr : ((s.entryAt e).body.desc?).isSome = r) : s.BoundFrom h { state := s.bindTo h e v, resident := r } where
  ctx := ⟨_, s.bindTo_ctxAt h e v⟩
  desc := by rw [State.bindTo_boundDesc, if_pos rfl, hr]
  wait := rfl
  carriers := rfl
  base := s.bindTo_base h e v

theorem State.fetchInto_boundFrom (s : State) (h : Head) (c : ClassId) (v : EntryIx) :
    s.BoundFrom h { state := s.fetchInto h c v, resident := false } := by
  rw [State.fetchInto_eq]
  have bound := State.bindTo_boundFrom (s.modEntry v fun x => { x with body := .fetching c s.cache.fetchLimit, users := 0 })
    h v 0 (r := false) (by simp [EntryBody.desc?])
  obtain ⟨x, ctx⟩ := bound.ctx
  exact
    { ctx := ⟨x, fun j => by rw [State.offerFetch_ctxAt]; exact ctx j⟩
      desc := by rw [State.offerFetch_boundDesc]; exact bound.desc
      wait := by rw [State.offerFetch_cache]; rfl
      carriers := by rw [State.offerFetch_carriers]; rfl
      base := by rw [State.offerFetch_base]; rfl }

theorem State.tryBind_boundFrom {h : Head} {c : ClassId} {r : Bool} {b : Bound} (hb : s.tryBind h c r = some b) :
    s.BoundFrom h b := by
  have := s.lookup h c r
  rw [hb] at this
  cases this with
  | resident body hit keep => exact s.bindTo_boundFrom h _ _ (by simp [body, EntryBody.desc?])
  | fetching body => exact s.bindTo_boundFrom h _ _ (by simp [body, EntryBody.desc?])
  | @refreshed e v asked resident hit users victim =>
    obtain ⟨ctx, desc, wait, carriers, base⟩ := (s.invalidate e).fetchInto_boundFrom h c v
    exact ⟨ctx, desc, wait, carriers, base⟩
  | missed miss victim => exact s.fetchInto_boundFrom h c _

theorem State.Sound.fetchInto (hs : s.Sound k) {h : Head} (hm : k.mode h = .homeless) (hb : (s.ctxAt h).binding = none)
    (hw : ∀ w ∈ s.cache.wait, w.head ≠ h) (hmiss : ∀ e, (s.entryAt e).body.matchesId (s.requestedId h) = false)
    {v : EntryIx} (hv : s.victim = some v) : (s.fetchInto h (s.requestedId h) v).Sound k := by
  rw [State.fetchInto_eq]
  refine ((hs.fetchAt hmiss hv _).bindTo hm hb ?_ hw).offerFetch _
  rw [State.modEntry_entryAt_self]
  exact ⟨rfl, rfl⟩

/-- A lookup that binds keeps the laws. -/
theorem State.Sound.tryBind (hs : s.Sound k) {h : Head} (hm : k.mode h = .homeless) (hb : (s.ctxAt h).binding = none)
    (hw : ∀ w ∈ s.cache.wait, w.head ≠ h) {r : Bool} {b : Bound} (hl : s.tryBind h (s.requestedId h) r = some b) :
    b.state.Sound k.owing := by
  have more (u : State) (hu : u.Sound k) : u.Sound k.owing := ⟨hu.heads, hu.power,
    { hu.cache with owes := fun _ => rfl }, ⟨hu.books.carriers, hu.books.named, hu.books.accounts, hu.books.closing,
      hu.books.queue, hu.books.waiting⟩, hu.flags⟩
  have := s.lookup h (s.requestedId h) r
  rw [hl] at this
  cases this with
  | @resident e tag d body hit keep =>
    refine more _ (hs.bindTo hm hb ?_ hw)
    rw [body]
    refine ⟨?_, rfl⟩
    simpa [body, EntryBody.matchesId, EntryBody.cover] using hit
  | fetching body =>
    refine more _ (hs.bindTo hm hb ?_ hw)
    rw [body]
    exact ⟨rfl, rfl⟩
  | @refreshed e v asked resident hit users victim =>
    refine (hs.invalidate users).fetchInto hm hb hw (fun f => ?_) victim
    rw [State.invalidate_entryAt]
    split
    · rfl
    · next hf =>
      by_contra hfm
      exact hf (hs.cache.oneMatch _ _ _ ((Bool.not_eq_false _).mp hfm) hit)
  | missed miss victim => exact more _ (hs.fetchInto hm hb hw miss victim)

/-! ### The wait-list and its retry (R32, R33) -/

/-- The flight with no retry owed. -/
def Flight.paid (k : Flight) : Flight := { k with owes := false }

@[simp] theorem Flight.paid_mode (k : Flight) : k.paid.mode = k.mode := rfl
@[simp] theorem Flight.paid_owes (k : Flight) : k.paid.owes = false := rfl
@[simp] theorem Flight.paid_unplaced (k : Flight) : k.paid.unplaced = k.unplaced := rfl
@[simp] theorem Flight.paid_slots (k : Flight) : k.paid.slots = k.slots := rfl
@[simp] theorem Flight.owing_paid (k : Flight) : k.owing.paid = k.paid := rfl
@[simp] theorem Flight.paid_paid (k : Flight) : k.paid.paid = k.paid := rfl
theorem Flight.paid_put (k : Flight) (h : Head) (m : HeadMode) : (k.put h m).paid = k.paid.put h m := rfl
theorem Flight.owing_put (k : Flight) (h : Head) (m : HeadMode) : (k.put h m).owing = k.owing.put h m := rfl

theorem Flight.paid_of {k : Flight} (h : k.owes = false) : k.paid = k := by
  obtain ⟨m, o, u, n⟩ := k
  cases h
  rfl

/-- The retry owed has been made. -/
def State.pay (s : State) : State := s.modCache fun c => { c with retryOwed := false }

theorem State.Sound.pay (hs : s.Sound k) (hv : s.cache.wait ≠ [] → ∀ e, (s.entryAt e).idle = false) :
    s.pay.Sound k.paid :=
  hs.modCache
    { recency := hs.cache.recency, oneMatch := hs.cache.oneMatch, users := hs.cache.users, bindings := hs.cache.bindings
      waiters := hs.cache.waiters, descriptors := hs.cache.descriptors, noVictim := fun hw => .inl (hv hw)
      owes := fun h => by cases h
      placed := hs.cache.placed, requirements := hs.cache.requirements, running := hs.cache.running } rfl rfl rfl

/-- The state with another cache-wait list. -/
def State.setWait (s : State) (ws : List Waiter) : State := s.modCache fun c => { c with wait := ws }

theorem State.setWait_self (s : State) : s.setWait s.cache.wait = s := rfl

theorem bestVictim_setWait (s : State) (ws : List Waiter) (es : List EntryIx) :
    bestVictim (s.setWait ws) es = bestVictim s es := by
  induction es with
  | nil => rfl
  | cons e es ih => simp only [bestVictim, ih]; rfl

theorem State.victim_setWait (s : State) (ws : List Waiter) : (s.setWait ws).victim = s.victim := by
  simp only [State.victim, bestVictim_setWait]
  rfl

theorem State.setWait_offerFetch (s : State) (ws : List Waiter) (c : ClassId) :
    (s.setWait ws).offerFetch c = (s.offerFetch c).setWait ws := by
  unfold State.offerFetch
  split
  · next hr => rw [if_pos (show s.ccReachable = true from hr)]; rfl
  · next hr => rw [if_neg (show ¬ s.ccReachable = true from hr)]

theorem State.setWait_fetchInto (s : State) (ws : List Waiter) (h : Head) (c : ClassId) (v : EntryIx) :
    (s.setWait ws).fetchInto h c v = (s.fetchInto h c v).setWait ws := by
  rw [State.fetchInto_eq, State.fetchInto_eq, ← State.setWait_offerFetch]
  rfl

theorem State.setWait_bindMiss (s : State) (ws : List Waiter) (h : Head) (c : ClassId) :
    (s.setWait ws).bindMiss h c = (s.bindMiss h c).map fun b => { b with state := b.state.setWait ws } := by
  simp only [State.bindMiss, State.victim_setWait, State.setWait_fetchInto]
  cases s.victim <;> rfl

/-- A lookup does not see the cache-wait list. -/
theorem State.setWait_tryBind (s : State) (ws : List Waiter) (h : Head) (c : ClassId) (r : Bool) :
    (s.setWait ws).tryBind h c r = (s.tryBind h c r).map fun b => { b with state := b.state.setWait ws } := by
  have same : (s.setWait ws).matchEntry c = s.matchEntry c := rfl
  have entry (e : EntryIx) : (s.setWait ws).entryAt e = s.entryAt e := rfl
  have drop (e : EntryIx) : (s.setWait ws).invalidate e = (s.invalidate e).setWait ws := rfl
  have bind (e : EntryIx) (v : Nat) : (s.setWait ws).bindTo h e v = (s.bindTo h e v).setWait ws := rfl
  simp only [State.tryBind, same, entry, drop, bind, State.setWait_bindMiss]
  split
  · rfl
  · split
    · split <;> rfl
    · rfl
    · rfl

theorem retryWaiters_setWait (ws us : List Waiter) (s : State) : retryWaiters ws (s.setWait us) = retryWaiters ws s := by
  induction ws generalizing s with
  | nil => rfl
  | cons w ws ih =>
    rw [retryWaiters, retryWaiters, State.setWait_tryBind]
    cases hb : s.tryBind w.head w.classId w.refresh with
    | none => rfl
    | some b => exact ih (b.state.setBound w.head b.resident)

theorem State.Sound.setWait_tail (hs : s.Sound k) {w : Waiter} {ws : List Waiter} (hw : s.cache.wait = w :: ws) :
    (s.setWait ws).Sound (k.put w.head .homeless) := by
  have cs := hs.cache
  have old := cs.waiters
  rw [State.WaitersUnbound, hw] at old
  obtain ⟨nodup, members⟩ := old
  obtain ⟨arming, unbound, current⟩ := members w List.mem_cons_self
  refine ⟨?_, ?_, ⟨cs.recency, cs.oneMatch, cs.users, cs.bindings, ⟨(List.nodup_cons.mp nodup).2, fun v hv =>
    members v (List.mem_cons_of_mem _ hv)⟩, cs.descriptors, fun _ => cs.noVictim (by rw [hw]; simp), cs.owes,
    fun j hj hm => ?_, fun j hj hm => ?_, fun j hj hm => ?_⟩, ?_, ?_⟩
  · refine hs.heads.change w.head (fun _ => rfl) (fun _ _ => rfl) (fun _ _ => rfl) ?_
    have ok := hs.heads w.head
    exact ⟨⟨arming, ok.arming arming⟩, ok.rested, ok.unwatched, ok.enabled⟩
  · exact hs.power.congr rfl (fun _ => rfl) (fun _ => rfl) rfl
  · rw [Flight.put_mode] at hm
    split at hm
    · cases hm
    · next hne =>
      refine (cs.placed j hj hm).imp_right fun ⟨v, hv, e⟩ => ⟨v, ?_, e⟩
      rw [hw] at hv
      rcases List.mem_cons.mp hv with rfl | hv
      · exact absurd e.symm hne
      · exact hv
  · rw [Flight.put_mode] at hm
    split at hm
    · exact absurd rfl hm
    · exact cs.requirements j hj hm
  · rw [Flight.put_mode] at hm
    split at hm
    · cases hm
    · exact cs.running j hj hm
  · exact (hs.books.congr (t := s.setWait ws) rfl rfl fun _ => rfl).put _ _
  · exact hs.flags.congr rfl rfl rfl (State.claimPresent_congr fun _ => rfl) rfl rfl rfl rfl

/-- The class a waiter asks for is that of its promoted assignment. -/
theorem State.requestedId_of_waiter {h : Head} {c : ClassId} {r : Bool}
    (hc : (s.ctxAt h).current.map (fun c => (c.asg.classId, c.asg.refresh)) = some (c, r)) : s.requestedId h = c := by
  unfold State.requestedId
  cases hk : (s.ctxAt h).current with
  | none => simp [hk] at hc
  | some a => simp [hk] at hc ⊢; exact hc.1

/-- The requirements of a head are set while its bind request is in hand; it stands as between two commands. -/
theorem State.Sound.armed (hs : s.Sound k) {h : Head} (hm : k.mode h = .homeless) {r : Requirements}
    (placed : (s.ctxAt h).binding.isSome = true ∨ ∃ w ∈ s.cache.wait, w.head = h)
    (hr : ∀ c ∈ (s.ctxAt h).current, r = s.requirementsFor h c.asg (s.boundDesc h).isSome) :
    (s.modCtx h fun c => { c with reqs := some r }).Sound (k.put h .plain) := by
  have ok := hs.heads h
  rw [hm] at ok
  obtain ⟨arming, promoted, cause, held⟩ := ok.shaped
  have cold : (s.ctxAt h).state ≠ .heating := by rw [arming]; decide
  have rest := hs.atRest cold
  exact hs.recast
    { own := ⟨by simpa only [HeadCtx.ShapedAs, HeadCtx.Shaped, arming] using ⟨promoted, rfl, cause, held⟩,
        fun _ => ok.rested cold, ok.unwatched, ok.enabled⟩
      rest := fun _ => ⟨rest, rest.acc, rest.limited⟩
      acc := (hs.power.integrators h).1
      asg := fun _ => rfl, binding := rfl
      waits := fun _ => arming
      placed := fun _ _ => placed
      requirements := fun _ _ a ha => by rw [hr a ha]; rfl
      running := fun e => absurd e cold
      fault := .inr Iff.rfl }

/-- The retry keeps the laws, and leaves no victim beside a head that waits. -/
theorem State.Sound.retryWaiters {ws : List Waiter} (hs : s.Sound k) (hw : s.cache.wait = ws) (ho : k.owes = true)
    (hk : ∀ j, k.mode j ≠ .homeless) : (retryWaiters ws s).pay.Sound k.paid := by
  induction ws generalizing s with
  | nil =>
    have : Machine.retryWaiters [] s = s := by rw [← s.setWait_self, hw]; rfl
    rw [this]
    exact hs.pay fun h => absurd hw h
  | cons w ws ih =>
    have old := hs.cache.waiters
    rw [State.WaitersUnbound, hw] at old
    obtain ⟨nodup, members⟩ := old
    obtain ⟨arming, unbound, current⟩ := members w List.mem_cons_self
    have requested := State.requestedId_of_waiter current
    have plain : k.mode w.head = .plain := by
      have shaped := (hs.heads w.head).shaped
      cases hm : k.mode w.head with
      | plain => rfl
      | transit => rw [hm] at shaped; rw [shaped.1] at arming; cases arming
      | homeless => exact absurd hm (hk w.head)
      | deferred => rw [hm] at shaped; rw [shaped.2] at arming; cases arming
    unfold Machine.retryWaiters
    cases hb : s.tryBind w.head w.classId w.refresh with
    | none =>
      have lookup := s.lookup w.head w.classId w.refresh
      rw [hb] at lookup
      cases lookup with
      | starved miss victim =>
        have : (s.modCache fun k => { k with wait := w :: ws }) = s := by rw [← hw]; rfl
        simp only [this]
        exact hs.pay fun _ => State.victim_none_iff.mp victim
    | some b =>
      have popped := hs.setWait_tail hw
      have bound : (s.setWait ws).tryBind w.head ((s.setWait ws).requestedId w.head) w.refresh =
          some { b with state := b.state.setWait ws } := by
        rw [State.setWait_tryBind]
        have : (s.setWait ws).requestedId w.head = w.classId := requested
        rw [this, hb]
        rfl
      have away : ∀ v ∈ (s.setWait ws).cache.wait, v.head ≠ w.head := fun v hv e =>
        (List.nodup_cons.mp nodup).1 (List.mem_map.mpr ⟨v, hv, e⟩)
      have sound := popped.tryBind (by simp) unbound away bound
      obtain ⟨⟨x, ctx⟩, desc, wait, carriers, base⟩ := State.tryBind_boundFrom bound
      simp only at ctx desc wait carriers base
      have own : (b.state.setWait ws).ctxAt w.head = { s.ctxAt w.head with binding := some x } := by
        rw [ctx, if_pos rfl]; rfl
      obtain ⟨a, ha⟩ := HeadCtx.promoted_current ((hs.heads w.head).arming arming).1
      have reqs := hs.cache.requirements w.head arming (hk _) _ (Option.mem_def.mpr ha)
      have unboundDesc : (s.boundDesc w.head).isSome = false := by simp [State.boundDesc, unbound]
      have follows (r : Bool) : (b.state.setWait ws).requirementsFor w.head a r = s.requirementsFor w.head a r :=
        State.requirementsFor_congr (by rw [State.carrierAt_congr carriers]; rfl)
          ((State.interlock_of_base base).trans rfl) (by rw [own])
      have armed := sound.armed (h := w.head) (r := s.requirementsFor w.head a b.resident) (by simp)
        (.inl (by rw [own]; rfl)) (fun c hc => by
          rw [own] at hc
          rw [Option.mem_def, ha] at hc
          cases hc
          rw [follows, desc])
      have set : (b.state.setWait ws).modCtx w.head
            (fun c => { c with reqs := some (s.requirementsFor w.head a b.resident) }) =
          (b.state.setBound w.head b.resident).setWait ws := by
        refine State.ext_at rfl rfl rfl rfl (fun _ => rfl) rfl (fun j => ?_) (fun _ => rfl) (fun _ => rfl) rfl rfl rfl
        have : ((b.state.setBound w.head b.resident).setWait ws).ctxAt j =
            ((b.state.setWait ws).modCtx w.head
              fun c => { c with reqs := c.reqs.map fun r => { r with bound := b.resident } }).ctxAt j := rfl
        rw [this, State.modCtx_ctxAt, State.modCtx_ctxAt, own, reqs, unboundDesc]
        rfl
      rw [set] at armed
      have flight : ((k.put w.head .homeless).owing).put w.head .plain = k := by
        rw [Flight.owing_put, Flight.put_put, ← plain]
        have : k.owing = k := by
          obtain ⟨m, o, u, n⟩ := k
          cases ho
          rfl
        rw [this, Flight.put_self]
      rw [flight] at armed
      have := ih armed rfl
      rwa [retryWaiters_setWait] at this

/-- The wait-list retry keeps the laws and is owed no more. -/
theorem State.Sound.runRetry (hs : s.Sound k) (hk : ∀ j, k.mode j ≠ .homeless) : s.runRetry.Sound k.paid := by
  unfold State.runRetry
  split
  · next ho => exact hs.retryWaiters rfl (hs.cache.owes ho) hk
  · next ho =>
    refine ⟨hs.heads, hs.power, { hs.cache with owes := fun h => absurd h ho }, ?_, hs.flags⟩
    exact ⟨hs.books.carriers, hs.books.named, hs.books.accounts, hs.books.closing, hs.books.queue, hs.books.waiting⟩

end Sys2Proof.Machine
end

section
/-! Promotion and termination (R50, R71 to R74, R77, R78). -/

namespace Sys2Proof.Machine

variable {s t : State} {k : Flight}

/-! ### Promotion (R50) -/

theorem State.modCtx_congr {h : Head} {f g : HeadCtx → HeadCtx} (hfg : f (s.ctxAt h) = g (s.ctxAt h)) :
    s.modCtx h f = s.modCtx h g := by
  unfold State.modCtx
  rw [hfg]

theorem State.modCtx_self {h : Head} {f : HeadCtx → HeadCtx} (hf : f (s.ctxAt h) = s.ctxAt h) : s.modCtx h f = s := by
  refine State.ext_at rfl rfl rfl rfl (fun _ => rfl) rfl (fun j => ?_) (fun _ => rfl) (fun _ => rfl) rfl rfl rfl
  exact State.modCtx_view id hf j

/-- The next work overwrites the state it finds the head in. -/
theorem State.nextWork_modCtx_state (s : State) (h : Head) (st : HeadState) :
    (s.modCtx h fun c => { c with state := st }).nextWork h = s.nextWork h := by
  have current : ((s.modCtx h fun c => { c with state := st }).ctxAt h).current = (s.ctxAt h).current := by simp
  unfold State.nextWork State.promote
  rw [current]
  cases (s.ctxAt h).current with
  | none => simp only [Option.isSome_none, Bool.false_eq_true, if_false, State.modCtx_modCtx]
  | some cur => simp only [Option.isSome_some, if_true, State.modCtx_modCtx]

/-- A head in ARMING that finds no victim joins the cache-wait list (R32). -/
theorem State.Sound.joinWait (hs : s.Sound k) {w : Waiter} (hm : k.mode w.head = .homeless)
    (hb : (s.ctxAt w.head).binding = none)
    (hc : (s.ctxAt w.head).current.map (fun c => (c.asg.classId, c.asg.refresh)) = some (w.classId, w.refresh))
    (hw : ∀ v ∈ s.cache.wait, v.head ≠ w.head) (hv : s.victim = none) : (s.setWait (s.cache.wait ++ [w])).Sound k := by
  have cs := hs.cache
  have ok := hs.heads w.head
  rw [hm] at ok
  have idle := State.victim_none_iff.mp hv
  refine hs.modCache
    { recency := cs.recency, oneMatch := cs.oneMatch, users := cs.users, bindings := cs.bindings
      waiters := ⟨?_, fun v hv => ?_⟩
      descriptors := cs.descriptors, noVictim := fun _ => .inl idle, owes := cs.owes
      placed := fun j hj hmj => (cs.placed j hj hmj).imp_right fun ⟨v, hv, e⟩ => ⟨v, List.mem_append_left _ hv, e⟩
      requirements := cs.requirements, running := cs.running } rfl rfl rfl
  · show ((s.cache.wait ++ [w]).map Waiter.head).Nodup
    rw [List.map_append, List.nodup_append]
    refine ⟨cs.waiters.1, by simp, fun a ha b hb' => ?_⟩
    obtain ⟨v, hv, rfl⟩ := List.mem_map.mp ha
    obtain rfl : b = w.head := by simpa using hb'
    exact hw v hv
  · rcases List.mem_append.mp hv with hv | hv
    · exact cs.waiters.2 v hv
    · obtain rfl : v = w := by simpa using hv
      exact ⟨ok.shaped.1, hb, hc⟩

/-- A promotion keeps the laws: the head stands in ARMING, bound or waiting. -/
theorem State.Sound.promote (hs : s.Sound k) {h : Head} (hm : k.mode h = .transit) (hk : ∀ j, k.mode j ≠ .homeless)
    (hc : (s.ctxAt h).current.isSome = true) (hh : (s.ctxAt h).heldRecord = none) :
    (s.promote h).Sound (k.put h .plain).paid := by
  obtain ⟨cur, hcur⟩ := Option.isSome_iff_exists.mp hc
  have ok := hs.heads h
  rw [hm] at ok
  obtain ⟨idle, -, -, unbound, -, cause⟩ := ok.shaped
  have cold : (s.ctxAt h).state ≠ .heating := by rw [idle]; decide
  have rest := hs.atRest cold
  have alone : ∀ w ∈ s.cache.wait, w.head ≠ h := fun w hw e => by
    have := (hs.cache.waiters.2 w hw).1
    rw [e, idle] at this
    cases this
  have enabled : ¬ (s.configAt h).enable = false := fun he => by
    have := ok.enabled.mpr he
    rw [idle] at this
    cases this
  have armed : (s.modCtx h fun c => { c with state := .arming, current := some { cur with promoted := true } }).Sound
      (k.put h .homeless) := hs.recast
    { own := ⟨⟨rfl, rfl, cause, hh⟩, fun _ => ok.rested cold, fun _ => rest.stale,
        fun e => (by cases e), fun e => absurd e enabled⟩
      rest := fun _ => ⟨rest, rest.acc, rest.limited⟩
      acc := (hs.power.integrators h).1
      asg := fun _ => by rw [hcur]; rfl
      binding := rfl
      waits := fun _ => rfl
      placed := fun _ e => by cases e
      requirements := fun _ e => absurd rfl e
      running := fun e => by cases e
      fault := .inr ⟨fun e => (by cases e), fun e => by rw [idle] at e; cases e⟩ }
    (by simp [HeadCtx.assignments, hcur])
  unfold State.promote
  simp only [hcur]
  generalize hu : (s.modCtx h fun c => { c with state := .arming, current := some { cur with promoted := true } }) = u at *
  have own : (u.ctxAt h).current = some { cur with promoted := true } ∧ (u.ctxAt h).binding = none := by
    rw [← hu, State.modCtx_ctxAt_self]
    exact ⟨rfl, unbound⟩
  have wait : ∀ w ∈ u.cache.wait, w.head ≠ h := by rw [← hu]; exact alone
  have requested : u.requestedId h = cur.asg.classId := by simp [State.requestedId, own.1]
  have done {b : Bound} {k' : Flight} (hb : b.state.Sound k') (hk' : k'.paid = k.paid.put h .homeless)
      (current : (b.state.ctxAt h).current = some { cur with promoted := true })
      (placed : (b.state.ctxAt h).binding.isSome = true ∨ ∃ w ∈ b.state.cache.wait, w.head = h)
      (desc : (b.state.boundDesc h).isSome = b.resident) :
      ((b.state.modCtx h fun c => { c with reqs := some (b.state.requirementsFor h cur.asg b.resident) }).runRetry).Sound
        (k.put h .plain).paid := by
    have mode : k'.paid.mode = (k.paid.put h .homeless).mode := congrArg Flight.mode hk'
    rw [Flight.paid_mode] at mode
    have := (hb.armed (h := h) (r := b.state.requirementsFor h cur.asg b.resident) (by simp [mode]) placed
      fun c hc => by
        rw [current] at hc
        cases hc
        rw [desc]).runRetry fun j => by
          rw [Flight.put_mode, mode]
          split
          · simp
          · next hj => simpa [hj] using hk j
    rwa [Flight.paid_put, hk', Flight.put_put, ← Flight.paid_put] at this
  unfold State.bindRequest
  cases hb : u.tryBind h cur.asg.classId cur.asg.refresh with
  | some b =>
    obtain ⟨⟨x, ctx⟩, desc, -⟩ := State.tryBind_boundFrom hb
    rw [← requested] at hb
    refine done (armed.tryBind (by simp) own.2 wait hb) rfl ?_ (.inl ?_) desc
    · rw [ctx, if_pos rfl]; exact own.1
    · rw [ctx, if_pos rfl]; rfl
  | none =>
    have lookup := u.lookup h cur.asg.classId cur.asg.refresh
    rw [hb] at lookup
    cases lookup with
    | starved miss victim =>
      refine done (b := { state := u.setWait (u.cache.wait ++ [⟨h, cur.asg.classId, cur.asg.refresh⟩]), resident := false })
        (armed.joinWait (by simp) own.2 (by simp [own.1]) wait victim) rfl own.1 
        (.inr ⟨⟨h, cur.asg.classId, cur.asg.refresh⟩, ?_, rfl⟩) ?_
      · exact List.mem_append_right _ (List.mem_singleton.mpr rfl)
      · have : (u.setWait (u.cache.wait ++ [⟨h, cur.asg.classId, cur.asg.refresh⟩])).boundDesc h = u.boundDesc h := rfl
        rw [this, State.boundDesc, own.2]
        rfl

/-- The next work of a head that has left its cycle or assignment (R74, R76, R83). -/
theorem State.Sound.nextWork (hs : s.Sound k) {h : Head} (hm : k.mode h = .transit) (hk : ∀ j, k.mode j ≠ .homeless)
    (hh : (s.ctxAt h).heldRecord = none) : (s.nextWork h).Sound (k.put h .plain).paid := by
  unfold State.nextWork
  split
  · next hc => exact hs.promote hm hk hc hh
  · next hc =>
    have ok := hs.heads h
    rw [hm] at ok
    obtain ⟨idle, -, next, unbound, reqs, cause⟩ := ok.shaped
    have current : (s.ctxAt h).current = none := by simpa using hc
    have empty : (s.ctxAt h).next = none := by
      by_contra hn
      exact hc (next (Option.isSome_iff_ne_none.mpr hn))
    have same : (s.modCtx h fun c => { c with state := .idle }) = s.modCtx h fun c => { c with state := .idle, cause := none } :=
      State.modCtx_congr (by simp [cause])
    rw [same]
    refine State.Sound.runRetry (hs.restAs hm (by decide) (by decide) (by decide) ?_ (.inr (by decide))) fun j => ?_
    · exact ⟨current, empty, unbound, reqs, rfl, hh⟩
    · rw [Flight.put_mode]
      split
      · simp
      · exact hk j

/-! ### Termination (R71 to R74) -/

section
variable (s : State) (h j : Head) (r : JointRecord)

theorem State.offerJoint_ctxAt : (s.offerJoint h r).ctxAt j =
    if j = h ∧ s.queueHasRoom = false then { s.ctxAt j with heldRecord := some r } else s.ctxAt j := by
  unfold State.offerJoint
  cases hq : s.queueHasRoom
  · rw [if_neg (by simp), State.modCtx_ctxAt]
    by_cases hj : j = h
    · subst hj; simp
    · simp [hj]
  · simp

theorem State.offerJoint_view {α : Type} (view : State → α) (hq : ∀ u : State, view (u.enterRecord (.joint r)) = view u)
    (hc : ∀ u : State, view (u.modCtx h fun c => { c with heldRecord := some r }) = view u) :
    view (s.offerJoint h r) = view s := by
  unfold State.offerJoint
  split
  · exact hq s
  · exact hc s

@[simp] theorem State.offerJoint_intakeAt : (s.offerJoint h r).intakeAt j = s.intakeAt j :=
  s.offerJoint_view h r (fun u => u.intakeAt j) (fun _ => rfl) fun _ => rfl
@[simp] theorem State.offerJoint_rowAt : (s.offerJoint h r).rowAt j = s.rowAt j :=
  s.offerJoint_view h r (fun u => u.rowAt j) (fun _ => rfl) fun _ => rfl
@[simp] theorem State.offerJoint_entryAt (e : EntryIx) : (s.offerJoint h r).entryAt e = s.entryAt e :=
  s.offerJoint_view h r (fun u => u.entryAt e) (fun _ => rfl) fun _ => rfl
@[simp] theorem State.offerJoint_cache : (s.offerJoint h r).cache = s.cache :=
  s.offerJoint_view h r State.cache (fun _ => rfl) fun _ => rfl
@[simp] theorem State.offerJoint_carriers : (s.offerJoint h r).carriers = s.carriers :=
  s.offerJoint_view h r State.carriers (fun _ => rfl) fun _ => rfl
@[simp] theorem State.offerJoint_ring : (s.offerJoint h r).ring = s.ring :=
  s.offerJoint_view h r State.ring (fun _ => rfl) fun _ => rfl

end

/-- The end of a cycle but for the new state of its head: the stop, the current assignment given up and reported to its
carrier, the joint record offered (R71, R72, R34, R59, R140). -/
def State.ended (s : State) (h : Head) (e : Ending) : State :=
  let r := s.jointRecord h e
  ((s.cool h e.cancel (((s.boundDesc h).map ClassDesc.settle).getD 0)).dismiss h r.carrier
    (CarrierEntry.ended e.outcome.cls)).offerJoint h r

/-- The end of a cycle in the order of its parts. -/
theorem State.offerJoint_unbind {h : Head} (r : JointRecord) (f : CarrierEntry → CarrierEntry)
    (hr : (s.ctxAt h).reqs = none) (hw : ∀ w ∈ s.cache.wait, w.head ≠ h) :
    (s.dismiss h r.carrier f).offerJoint h r =
      (((s.offerJoint h r).modCarrier r.carrier f).unbind h).modCtx h fun c => { c.advance with state := .idle } := by
  have room : (s.dismiss h r.carrier f).queueHasRoom = s.queueHasRoom := by simp [State.queueHasRoom, State.dismiss]
  have last (u : State) : u.lastUser h = (u.ctxAt h).binding.any fun b => decide ((u.entryAt b.entry).users - 1 = 0) := rfl
  have binding (j : Head) : ((s.offerJoint h r).ctxAt j).binding = (s.ctxAt j).binding := by
    rw [State.offerJoint_ctxAt]; split <;> rfl
  refine State.ext_at ?_ ?_ ?_ ?_ (fun e => ?_) ?_ (fun j => ?_) (fun j => ?_) (fun j => ?_) ?_ ?_ ?_
  · simp [State.dismiss]
  · have : (s.cache.wait.filter fun w => decide (w.head ≠ h)) = s.cache.wait :=
      List.filter_eq_self.mpr fun w hm => by simpa using hw w hm
    simpa [State.dismiss] using this
  · simp [State.dismiss]
  · simp [State.dismiss, State.unbind_retryOwed, last, binding]
  · simp [State.dismiss, State.unbind_entryAt, binding]
  · simp [State.dismiss]
  · rw [State.offerJoint_ctxAt, room, State.modCtx_ctxAt, State.unbind_ctxAt, State.unbind_ctxAt, if_pos rfl,
      State.modCarrier_ctxAt, State.modCarrier_ctxAt, State.offerJoint_ctxAt, State.offerJoint_ctxAt, State.dismiss,
      State.modCarrier_ctxAt, State.vacate_ctxAt]
    by_cases hj : j = h
    · subst hj
      cases s.queueHasRoom <;> simp [HeadCtx.vacated, HeadCtx.advance, hr]
    · simp [hj]
  · simp [State.dismiss]
  · simp [State.dismiss]
  · rw [(State.offerJoint_queue _ _ _).1, room]
    simp [State.dismiss, (State.offerJoint_queue _ _ _).1]
  · simp [State.dismiss]
  · unfold State.offerJoint
    rw [room]
    cases s.queueHasRoom <;> simp [State.dismiss]

/-- The termination as the end of the cycle with the new state of the head (R74). -/
theorem State.terminate_eq {h : Head} (e : Ending) (hr : (s.ctxAt h).reqs = none)
    (hw : ∀ w ∈ s.cache.wait, w.head ≠ h) :
    s.terminate h e = match causeOf e.outcome with
      | some cause => ((s.ended h e).modCtx h fun c => { c with state := .faulted, cause := some cause }).reportFault.runRetry
      | none =>
        if s.queueHasRoom then (s.ended h e).nextWork h
        else ((s.ended h e).modCtx h fun c => { c with state := .held }).runRetry := by
  have room : (s.cool h e.cancel (((s.boundDesc h).map ClassDesc.settle).getD 0)).queueHasRoom = s.queueHasRoom := by
    simp [State.queueHasRoom]
  have ended : s.ended h e = ((((s.cool h e.cancel (((s.boundDesc h).map ClassDesc.settle).getD 0)).offerJoint h
      (s.jointRecord h e)).reportEnd (s.jointRecord h e).carrier e.outcome.cls).unbind h).modCtx h
        fun c => { c.advance with state := .idle } :=
    State.offerJoint_unbind _ _ (by rw [State.cool_ctxAt, if_pos rfl]; exact hr) (by rw [State.cool_cache]; exact hw)
  have parts : s.terminate h e =
      (((s.cool h e.cancel (((s.boundDesc h).map ClassDesc.settle).getD 0)).offerJoint h (s.jointRecord h e)).reportEnd
        (s.jointRecord h e).carrier e.outcome.cls).settleHead h e.outcome s.queueHasRoom := by
    rw [← room]
    rfl
  rw [parts, State.settleHead]
  cases causeOf e.outcome with
  | some cause =>
    simp only
    rw [ended, State.modCtx_modCtx]
    rfl
  | none =>
    simp only
    rw [ended]
    split
    · rw [← State.nextWork_modCtx_state _ h .idle, State.modCtx_modCtx]
    · rw [State.modCtx_modCtx, State.modCtx_modCtx]

end Sys2Proof.Machine
end

section
/-! A termination and a discard keep the laws (R71 to R74, R77, R78, R80, R81). -/

namespace Sys2Proof.Machine

variable {s t : State} {k : Flight}

/-- A head that is not in ARMING waits for no class. -/
theorem State.Sound.absent (hs : s.Sound k) {h : Head} (hh : (s.ctxAt h).state ≠ .arming) :
    ∀ w ∈ s.cache.wait, w.head ≠ h := fun w hw e => hh (by rw [← e]; exact (hs.cache.waiters.2 w hw).1)

theorem State.jointRecord_carrier {h : Head} {a : Assignment} {p : Bool} (hc : (s.ctxAt h).current = some ⟨a, p⟩)
    (e : Ending) : (s.jointRecord h e).carrier = a.carrier := by
  simp [State.jointRecord, hc]

theorem State.ended_heldRecord {h : Head} (e : Ending) :
    ((s.ended h e).ctxAt h).heldRecord =
      if s.queueHasRoom then (s.ctxAt h).heldRecord else some (s.jointRecord h e) := by
  have room : ((s.cool h e.cancel (((s.boundDesc h).map ClassDesc.settle).getD 0)).dismiss h (s.jointRecord h e).carrier
      (CarrierEntry.ended e.outcome.cls)).queueHasRoom = s.queueHasRoom := by
    simp [State.queueHasRoom, State.dismiss]
  simp only [State.ended, State.offerJoint_ctxAt, room, true_and]
  cases s.queueHasRoom
  · simp
  · simp [State.dismiss, State.vacate_ctxAt, State.cool_ctxAt, HeadCtx.vacated, HeadCtx.advance, HeadCtx.terminated]

/-- The end of a cycle keeps the laws: its head is in transit. -/
theorem State.Sound.ended (hs : s.Sound k) {h : Head} (hh : (s.ctxAt h).state = .heating) (e : Ending) :
    (s.ended h e).Sound (k.put h .transit).owing := by
  obtain ⟨a, ha⟩ := HeadCtx.promoted_current ((hs.heads h).heating hh).1
  obtain ⟨cooled, rest⟩ := hs.cool hh e.cancel (((s.boundDesc h).map ClassDesc.settle).getD 0)
  have own := State.cool_ctxAt s h h e.cancel (((s.boundDesc h).map ClassDesc.settle).getD 0)
  rw [if_pos rfl] at own
  have state : ((s.cool h e.cancel (((s.boundDesc h).map ClassDesc.settle).getD 0)).ctxAt h).state = .heating := by
    rw [own]; exact hh
  have current : ((s.cool h e.cancel (((s.boundDesc h).map ClassDesc.settle).getD 0)).ctxAt h).current =
      some ⟨a, true⟩ := by
    rw [own]; exact ha
  have hf := countsEnd_ended e.outcome.cls
  have dismissed := cooled.dismiss rest ((cooled.heads h).atWork (.inr state)) current hf
  obtain ⟨c, hc, hopen⟩ := cooled.books.dismiss_open current hf
  unfold State.ended
  rw [← State.jointRecord_carrier ha e] at dismissed hc
  exact dismissed.offerJoint (by simp) hc hopen

/-- The flight once the head of an ended cycle or a discarded assignment has come to rest and the retry has been made. -/
theorem Flight.rested {k : Flight} {h : Head} : ((k.put h .transit).owing.put h .plain).paid = (k.put h .plain).paid := by
  rw [Flight.owing_put, Flight.put_put]
  rfl

theorem Flight.put_ne_homeless {k : Flight} {h : Head} {m : HeadMode} (hm : m ≠ .homeless)
    (hk : ∀ j, k.mode j ≠ .homeless) (j : Head) : (k.put h m).mode j ≠ .homeless := by
  rw [Flight.put_mode]
  split
  · exact hm
  · exact hk j

/-- A termination keeps the laws (R71 to R74). -/
theorem State.Sound.terminate (hs : s.Sound k) {h : Head} (hh : (s.ctxAt h).state = .heating)
    (hk : ∀ j, k.mode j ≠ .homeless) (e : Ending) : (s.terminate h e).Sound (k.put h .plain).paid := by
  obtain ⟨-, -, reqs, -, held⟩ := (hs.heads h).heating hh
  have ended := hs.ended hh e
  have record := s.ended_heldRecord (h := h) e
  have open' (j : Head) : (k.put h .transit).owing.mode j ≠ .homeless := Flight.put_ne_homeless (by decide) hk j
  have done (j : Head) : ((k.put h .transit).owing.put h .plain).mode j ≠ .homeless :=
    Flight.put_ne_homeless (by decide) open' j
  have mode : (k.put h .transit).owing.mode h = .transit := by simp
  have shape := (ended.heads h).shaped
  rw [mode] at shape
  obtain ⟨-, waiting, order, unbound, absent, cause⟩ := shape
  rw [State.terminate_eq e reqs (hs.absent (by rw [hh]; decide)), ← Flight.rested]
  split
  · next fault _ =>
    rw [State.modCtx_reportFault]
    exact (ended.reportFault.restAs mode (st := .faulted) (cause := some fault) (by decide) (by decide) (by decide) ⟨waiting, order, unbound, absent, rfl⟩
      (.inl rfl)).runRetry done
  · split
    · next room =>
      exact ended.nextWork mode open' (by rw [record, if_pos room]; exact held)
    · next room =>
      rw [if_neg room] at record
      have same : ((s.ended h e).modCtx h fun c => { c with state := .held }) =
          (s.ended h e).modCtx h fun c => { c with state := .held, cause := none } :=
        State.modCtx_congr (by simp [cause])
      rw [same]
      exact (ended.restAs mode (st := .held) (cause := none) (by decide) (by decide) (by decide)
        ⟨waiting, order, unbound, absent, rfl, by rw [record]; rfl⟩ (.inr (by decide))).runRetry done

/-! ### Discards (R77, R78, R80, R81, R83) -/

/-- A discard gives the current assignment up; only the state of the head is left to be named. -/
theorem State.discardCurrent_eq {h : Head} {a : Assignment} {p : Bool} (hc : (s.ctxAt h).current = some ⟨a, p⟩) :
    (s.discardCurrent h).modCtx h (fun c => { c with state := .idle }) = s.dismiss h a.carrier CarrierEntry.discarded := by
  unfold State.discardCurrent
  simp only [hc, Option.map_some]
  have order (u : State) (f : HeadCtx → HeadCtx) : (u.reportDiscard a.carrier).modCtx h f =
      (u.modCtx h f).reportDiscard a.carrier := rfl
  rw [order, State.modCtx_modCtx]
  rfl

/-- The discard of the promoted assignment of a head in ARMING keeps the laws: the head is in transit. -/
theorem State.Sound.discardCurrent (hs : s.Sound k) {h : Head} (hh : (s.ctxAt h).state = .arming) :
    ((s.discardCurrent h).modCtx h fun c => { c with state := .idle }).Sound (k.put h .transit).owing := by
  obtain ⟨a, ha⟩ := HeadCtx.promoted_current ((hs.heads h).arming hh).1
  rw [State.discardCurrent_eq ha]
  exact hs.dismiss (hs.atRest (by rw [hh]; decide)) ((hs.heads h).atWork (.inl hh)) ha countsEnd_discarded

theorem State.discardCurrent_heldRecord (s : State) (h : Head) :
    ((s.discardCurrent h).ctxAt h).heldRecord = (s.ctxAt h).heldRecord := by
  unfold State.discardCurrent
  have left (u : State) : ((u.unbind h).leaveWait h).ctxAt h = (u.unbind h).ctxAt h := rfl
  cases (s.ctxAt h).current <;> simp [State.reportDiscard, left, State.unbind_ctxAt, HeadCtx.advance]

/-- A head in ARMING is discarded into FAULTED. -/
theorem State.Sound.discardFaulted (hs : s.Sound k) {h : Head} (hh : (s.ctxAt h).state = .arming) (cause : FaultCause) :
    (((s.discardCurrent h).modCtx h fun c => { c with state := .faulted, cause := some cause }).reportFault).Sound
      ((k.put h .transit).owing.put h .plain) := by
  have discarded := hs.discardCurrent hh
  have mode : (k.put h .transit).owing.mode h = .transit := by simp
  have shape := (discarded.heads h).shaped
  rw [mode] at shape
  obtain ⟨-, waiting, order, unbound, absent, -⟩ := shape
  have faulted := discarded.reportFault.restAs mode (st := .faulted) (cause := some cause) (by decide) (by decide)
    (by decide) ⟨waiting, order, unbound, absent, rfl⟩ (.inl rfl)
  rw [← State.modCtx_reportFault, State.modCtx_modCtx] at faulted
  exact faulted

/-- R81: a head whose class cannot be had. -/
theorem State.Sound.classUnavailable (hs : s.Sound k) {h : Head} (hh : (s.ctxAt h).state = .arming) :
    (s.classUnavailable h).Sound ((k.put h .transit).owing.put h .plain) := hs.discardFaulted hh _

/-- A DRIVE_FAULT keeps the laws (R80). -/
theorem State.Sound.driveFault (hs : s.Sound k) (ho : k.owes = false) (h : Head) (hm : k.mode h = .plain)
    (hk : ∀ j, k.mode j ≠ .homeless) : (s.driveFault h).Sound k := by
  have flight : (k.put h .plain).paid = k := by rw [Flight.put_plain hm, Flight.paid_of ho]
  have ok := hs.heads h
  rw [hm] at ok
  have shape : (s.ctxAt h).Shaped := ok.shaped
  have fault (hst : (s.ctxAt h).state = .idle ∨ (s.ctxAt h).state = .held) :
      ((s.modCtx h fun c => { c with state := .faulted, cause := some .driveFault }).reportFault).Sound k := by
    have cold : (s.ctxAt h).state ≠ .heating := by rcases hst with e | e <;> rw [e] <;> decide
    have rest := hs.atRest cold
    rw [State.modCtx_reportFault]
    have := hs.reportFault.recast (h := h) (m := .plain)
      (f := fun c => { c with state := .faulted, cause := some .driveFault })
      { own := ⟨?_, fun _ => ok.rested cold, fun _ => rest.stale, fun e => (by cases e), fun he => ?_⟩
        rest := fun _ => ⟨⟨rest.row, rest.claims, rest.acc, rest.limited, rest.timer, rest.prefetch, rest.start, rest.feed,
          rest.sampled, rest.dstat, rest.stale, rest.frames⟩, rest.acc, rest.limited⟩
        acc := (hs.power.integrators h).1
        asg := fun _ => rfl, binding := rfl
        waits := fun ⟨w, hw, e⟩ => ?_
        placed := fun e => by cases e
        requirements := fun e => by cases e
        running := fun e => by cases e
        fault := .inl rfl }
    · rwa [Flight.put_plain hm] at this
    · unfold HeadCtx.Shaped at shape
      rcases hst with e | e <;> simp only [e] at shape
      · obtain ⟨c, n, b, r, -, -⟩ := shape
        exact ⟨by simp [State.reportFault, c], by simp [State.reportFault, n], b, r, rfl⟩
      · obtain ⟨c, n, b, r, -, -⟩ := shape
        exact ⟨c, n, b, r, rfl⟩
    · have := ok.enabled.mpr he
      rcases hst with e | e <;> rw [e] at this <;> cases this
    · have := (hs.cache.waiters.2 w hw).1
      rw [e] at this
      rcases hst with e | e <;> rw [e] at this <;> cases this
  unfold State.driveFault
  split
  · next e => exact fault (.inl e)
  · next e => exact fault (.inr e)
  · next e =>
    have := (hs.discardFaulted e .driveFault).runRetry fun j =>
      Flight.put_ne_homeless (by decide) (Flight.put_ne_homeless (k := k) (by decide) hk) j
    rwa [Flight.rested, flight] at this
  · next e =>
    have := hs.terminate e hk (s.endingNow h .driveFault)
    rwa [flight] at this
  · exact hs
  · exact hs

/-- The discard of the next assignment, now first in line (R78). -/
theorem State.Sound.discardWaiting (hs : s.Sound k) {h : Head} (hm : k.mode h = .transit)
    (hn : (s.ctxAt h).next = none) : (s.discardWaiting h).Sound k.owing := by
  have ok := hs.heads h
  rw [hm] at ok
  obtain ⟨idle, -, -, unbound, reqs, cause⟩ := ok.shaped
  unfold State.discardWaiting
  cases hc : (s.ctxAt h).current with
  | none =>
    exact ⟨hs.heads, hs.power, { hs.cache with owes := fun _ => rfl },
      ⟨hs.books.carriers, hs.books.named, hs.books.accounts, hs.books.closing, hs.books.queue, hs.books.waiting⟩, hs.flags⟩
  | some cur =>
    have dismissed := hs.dismiss (hs.atRest (by rw [idle]; decide)) (a := cur.asg) (p := cur.promoted)
      ⟨cause, by rw [idle]; decide, by rw [idle]; decide⟩ hc countsEnd_discarded
    rw [Flight.owing_put] at dismissed
    rw [show k.owing.put h .transit = k.owing from by rw [← hm]; exact Flight.put_self k.owing h] at dismissed
    have same : s.dismiss h cur.asg.carrier CarrierEntry.discarded =
        (s.modCtx h fun c => { c with current := none }).reportDiscard cur.asg.carrier := by
      have left : s.vacate h = s.modCtx h fun c => { c with current := none } := by
        refine State.ext_at (by simp) ?_ (by simp) ?_ (fun e => ?_) (by simp) (fun j => ?_) (fun j => by simp)
          (fun j => by simp) (by simp) (by simp) (by simp)
        · have : (s.cache.wait.filter fun w => decide (w.head ≠ h)) = s.cache.wait :=
            List.filter_eq_self.mpr fun w hw => by simpa using hs.absent (by rw [idle]; decide) w hw
          simpa using this
        · simp [State.lastUser, unbound]
        · simp [unbound]
        · rw [State.vacate_ctxAt, State.modCtx_ctxAt]
          split
          · simp [HeadCtx.vacated, HeadCtx.advance, hn, idle, unbound, reqs]
          · rfl
      rw [State.dismiss, left]
      rfl
    rwa [same] at dismissed

end Sys2Proof.Machine
end

section
/-! Steps, segments, the start of a cycle and the starts of ready heads keep the laws (R4, R5, R15 to R18, R52). -/

namespace Sys2Proof.Machine

variable {s t : State} {k : Flight}

/-! ### Intake and rows -/

/-- A change at Sample Intake keeps the laws where a head that is not HEATING gets no staleness timer. -/
theorem State.Sound.modIntake (hs : s.Sound k) {h : Head} {f : Intake → Intake}
    (hf : (s.ctxAt h).state ≠ .heating → (f (s.intakeAt h)).staleTimer = none) : (s.modIntake h f).Sound k where
  heads := by
    rw [← Function.update_eq_self h k.mode]
    refine hs.heads.change h (fun _ => rfl) (fun _ _ => rfl)
      (fun j hj => by rw [State.modIntake_intakeAt_of_ne _ hj]) ?_
    have ok := hs.heads h
    rw [State.modIntake_intakeAt_self]
    exact ⟨ok.shaped, ok.rested, hf, ok.enabled⟩
  power := hs.power.congr rfl (fun _ => rfl) (fun _ => rfl) rfl
  cache := hs.cache.congr rfl (fun _ => rfl) rfl rfl (fun _ => rfl) fun _ _ _ _ => rfl
  books := hs.books.congr rfl rfl fun _ => rfl
  flags := hs.flags.congr rfl rfl rfl (State.claimPresent_congr fun _ => rfl) rfl rfl rfl rfl

/-- The tier of a HEATING head is written (R122). -/
theorem State.Sound.writeTier (hs : s.Sound k) {h : Head} (hh : (s.ctxAt h).state = .heating) (tier : Tier) :
    (s.writeTier h tier).Sound k := by
  have row (j : Head) : ((s.writeTier h tier).rowAt j).grant = (s.rowAt j).grant ∧
      ((s.writeTier h tier).rowAt j).demand = (s.rowAt j).demand ∧ ((s.writeTier h tier).rowAt j).cap = (s.rowAt j).cap := by
    rw [State.writeTier, State.modRow_rowAt]
    split
    · next hj => rw [hj]; exact ⟨rfl, rfl, rfl⟩
    · exact ⟨rfl, rfl, rfl⟩
  have hp := hs.power
  refine ⟨hs.heads.congr rfl (fun _ => rfl) fun _ => rfl, ⟨⟨?_, hp.power.2⟩, fun j => ?_, fun j hj => ⟨?_, ?_⟩,
    hp.integrators, hp.drives, hp.restingFrames⟩,
    hs.cache.congr rfl (fun _ => rfl) rfl rfl (fun _ => rfl) fun _ _ _ _ => rfl, hs.books.congr rfl rfl fun _ => rfl,
    hs.flags.congr rfl rfl rfl (State.claimPresent_congr fun j => by rw [(row j).2.2]) rfl rfl rfl rfl⟩
  · rw [State.grantSum_congr fun j => (row j).1]; exact hp.power.1
  · rw [(row j).1, (row j).2.1]; exact hp.demands j
  · have hne : j ≠ h := by rintro rfl; exact hj hh
    rw [State.writeTier, State.modRow_rowAt_of_ne _ hne]
    exact (hp.resting j hj).1
  · intro i c hc
    rw [(row i).2.2] at hc
    exact (hp.resting j hj).2 i c hc

/-- The claims of a head are released (R128). -/
theorem State.Sound.releaseClaims (hs : s.Sound k) (h : Head) : (s.releaseClaims h).Sound k := by
  have hp := hs.power
  have row (j : Head) := State.releaseClaims_rowAt s h j
  have power : (s.releaseClaims h).PowerSound := by
    refine ⟨⟨?_, hp.power.2⟩, fun j => ?_, fun j hj => ⟨?_, ?_⟩, ?_, ?_, ?_⟩
    · rw [State.grantSum_congr (s := s) fun j => by rw [row, (Row.released_grant h _).1]]; exact hp.power.1
    · obtain ⟨g, d, -⟩ := Row.released_grant h (s.rowAt j)
      rw [row, g, d]
      exact hp.demands j
    · rw [State.releaseClaims_ctxAt] at hj
      rw [row]; exact Row.released_of_empty (hp.resting j hj).1
    · intro i c hc
      rw [State.releaseClaims_ctxAt] at hj
      rw [row] at hc
      exact (hp.resting j hj).2 i c (Row.mem_released_cap hc).1
    · simpa only [State.IntegratorsBounded, State.releaseClaims_ctxAt, State.config_of_base (s.releaseClaims_base h)]
        using hp.integrators
    · rw [State.OneDriveEach, State.releaseClaims_ring]; exact hp.drives
    · simpa only [State.RestingFramesStop, State.releaseClaims_ring, State.releaseClaims_ctxAt] using hp.restingFrames
  exact
    { heads := hs.heads.congr (by simp) (fun j => by simp) fun j => by simp
      power
      cache := hs.cache.congr (by simp) (fun j => by simp) (by simp) (by simp) (fun j => by simp) fun j _ c _ => by
        simp [State.carrierAt]
      books := hs.books.congr (by simp) (by simp) fun j => by simp
      flags := hs.flags.change (by simp) (by simp) (.inr ⟨by simp, by simp [State.recordsPresent]⟩)
        (.inr ⟨by simp, State.faultPresent_congr fun j => by simp⟩) (.inl (by simp)) (by simp)
        (by simpa using hs.flags.general) (by simp) }

/-! ### A change inside a running cycle -/

/-- What a step, a segment or a service leaves of the context of a HEATING head. -/
def HeadCtx.cycle (c : HeadCtx) :
    HeadState × Option Current × Option Assignment × Option Binding × Option Requirements × Option FaultCause × Option JointRecord :=
  (c.state, c.current, c.next, c.binding, c.reqs, c.cause, c.heldRecord)

theorem HeadCtx.cycle_eq_iff {c d : HeadCtx} :
    c.cycle = d.cycle ↔ c.state = d.state ∧ c.current = d.current ∧ c.next = d.next ∧ c.binding = d.binding ∧
      c.reqs = d.reqs ∧ c.cause = d.cause ∧ c.heldRecord = d.heldRecord := by
  simp [HeadCtx.cycle]

theorem State.Sound.inCycle (hs : s.Sound k) {h : Head} (hh : (s.ctxAt h).state = .heating) {m : HeadMode}
    (hm : m = .plain ∨ m = .deferred) {f : HeadCtx → HeadCtx} (keeps : (f (s.ctxAt h)).cycle = (s.ctxAt h).cycle)
    (acc : (f (s.ctxAt h)).iAcc ≤ 256 * (s.configAt h).rating)
    (running : m = .plain →
      ∃ w, (f (s.ctxAt h)).step = some w ∧ w.kind?.isSome = true ∧ (s.boundDesc h).isSome = true) :
    (s.modCtx h f).Sound (k.put h m) := by
  obtain ⟨state, current, next, binding, reqs, cause, held⟩ := HeadCtx.cycle_eq_iff.mp keeps
  have ok := hs.heads h
  have heating : (f (s.ctxAt h)).state = .heating := by rw [state, hh]
  have shape : (f (s.ctxAt h)).Shaped := by
    simpa only [HeadCtx.Shaped, heating, current, binding, reqs, cause, held] using ok.heating hh
  exact hs.recast
    { own := ⟨by rcases hm with rfl | rfl; exacts [shape, ⟨shape, heating⟩], fun e => absurd heating e,
        fun e => absurd heating e, by rw [state]; exact ok.enabled⟩
      rest := fun e => absurd heating e
      acc
      asg := fun _ => by rw [current]
      binding
      waits := fun ⟨w, hw, e⟩ => absurd e (hs.absent (by rw [hh]; decide) w hw)
      placed := fun e => by rw [heating] at e; cases e
      requirements := fun e => by rw [heating] at e; cases e
      running := fun _ => running
      fault := .inr (by rw [state]) } (by rw [HeadCtx.assignments, HeadCtx.assignments, current, next]) held

/-- A HEATING head may be set aside for a later termination. -/
theorem State.Sound.defer (hs : s.Sound k) {h : Head} (hh : (s.ctxAt h).state = .heating) :
    s.Sound (k.put h .deferred) := by
  have := hs.inCycle hh (m := .deferred) (f := id) (.inr rfl) rfl (hs.power.integrators h).1 fun e => by cases e
  rwa [State.modCtx_self rfl] at this

/-- What a head runs, by the law of running heads. -/
theorem State.Sound.runs (hs : s.Sound k) {h : Head} (hh : (s.ctxAt h).state = .heating) (hm : k.mode h = .plain) :
    ∃ w kd d, (s.ctxAt h).step = some w ∧ w.kind? = some kd ∧ s.boundDesc h = some d ∧
      s.runningStep h = some (w, kd, d) := by
  have := hs.cache.running h hh hm
  obtain ⟨x, hx⟩ := Option.isSome_iff_exists.mp this
  have hx' := hx
  unfold State.runningStep State.runningKind at hx
  cases hw : (s.ctxAt h).step with
  | none => simp [hw] at hx
  | some w =>
    cases hk : w.kind? with
    | none => simp [hw, hk] at hx
    | some kd =>
      cases hd : s.boundDesc h with
      | none => simp [hd] at hx
      | some d =>
        simp only [hw, Option.bind_some, hk, hd, Option.some.injEq] at hx
        exact ⟨w, kd, d, rfl, hk, rfl, by rw [hx', hx]⟩

/-! ### Steps, segments and end events (R4, R15 to R18) -/

/-- A step starts with a word of a valid kind. -/
theorem State.Sound.startStep (hs : s.Sound k) {h : Head} (hh : (s.ctxAt h).state = .heating) (a : Nat) {w : StepWord}
    (hk : w.kind?.isSome = true) (hd : (s.boundDesc h).isSome = true) : (s.startStep h a w).Sound (k.put h .plain) := by
  have started := hs.inCycle hh (m := .plain) (f := fun c =>
    { c with stepAddr := a, step := some w, stepClock := 0, tStart := c.lastTemp, stepTimer := w.timer,
             feedBaseline := if w.kind? = some .feed then (s.intakeAt h).lastFeed else none,
             feedOwed := w.kind? = some .feed, prefetch := s.prefetchFor h a w })
    (.inl rfl) rfl (hs.power.integrators h).1 fun _ => ⟨w, rfl, hk, hd⟩
  exact started.writeTier (by rw [State.modCtx_ctxAt_self]; exact hh) w.tier

theorem State.Sound.startSegment (hs : s.Sound k) {h : Head} (hh : (s.ctxAt h).state = .heating) (a : Nat) {w : StepWord}
    (hk : w.kind?.isSome = true) (hd : (s.boundDesc h).isSome = true) :
    (s.startSegment h a w).Sound (k.put h .plain) := by
  have started := hs.inCycle hh (m := .plain) (f := fun c =>
    { c with stepAddr := a, step := some w, stepTimer := w.timer, prefetch := s.prefetchFor h a w })
    (.inl rfl) rfl (hs.power.integrators h).1 fun _ => ⟨w, rfl, hk, hd⟩
  exact started.writeTier (by rw [State.modCtx_ctxAt_self]; exact hh) w.tier

theorem nextDecision_next {p : Prefetch} {w : StepWord} (h : nextDecision p = .next w) : w.kind?.isSome = true := by
  unfold nextDecision at h
  split at h
  · split at h
    · cases h
    · next hv => cases h; exact Option.isSome_iff_ne_none.mpr hv
  · cases h

theorem segmentDecision_segment {c : Fin 16} {p : Prefetch} {w : StepWord} (h : segmentDecision c p = .segment w) :
    w.code = c := by
  unfold segmentDecision at h
  split at h
  · split at h
    · next hv => cases h; exact hv
    · cases h
  · cases h

theorem nextDecision_ne_segment {p : Prefetch} {w : StepWord} : nextDecision p ≠ .segment w := by
  unfold nextDecision
  split
  · split <;> simp
  · simp

theorem segmentDecision_ne_next {c : Fin 16} {p : Prefetch} {w : StepWord} : segmentDecision c p ≠ .next w := by
  unfold segmentDecision
  split
  · split <;> simp
  · simp

/-- A chain leads to words of a valid kind alone (R16, R17). -/
theorem decideEnd_kind {w v : StepWord} {n : Nat} {c : HeadCtx} (hw : w.kind?.isSome = true)
    (h : decideEnd w n c = .next v ∨ decideEnd w n c = .segment v) : v.kind?.isSome = true := by
  have segment (hd : segmentDecision w.code c.prefetch = .next v ∨ segmentDecision w.code c.prefetch = .segment v) :
      v.kind?.isSome = true := by
    rcases hd with hd | hd
    · exact absurd hd segmentDecision_ne_next
    · rw [StepWord.kind?, segmentDecision_segment hd]; exact hw
  have next (hd : nextDecision c.prefetch = .next v ∨ nextDecision c.prefetch = .segment v) : v.kind?.isSome = true := by
    rcases hd with hd | hd
    · exact nextDecision_next hd
    · exact absurd hd nextDecision_ne_segment
  unfold decideEnd at h
  split at h
  · simp at h
  · split at h
    · split at h
      · exact segment h
      · simp at h
    · split at h
      · simp at h
      · split at h
        · exact next h
        · simp at h

theorem State.startStep_state (s : State) (h : Head) (a : Nat) (w : StepWord) (j : Head) :
    ((s.startStep h a w).ctxAt j).state = (s.ctxAt j).state := by
  rw [State.startStep, State.writeTier, State.modRow_ctxAt]
  exact State.modCtx_view HeadCtx.state (by rfl) j

theorem State.startSegment_state (s : State) (h : Head) (a : Nat) (w : StepWord) (j : Head) :
    ((s.startSegment h a w).ctxAt j).state = (s.ctxAt j).state := by
  rw [State.startSegment, State.writeTier, State.modRow_ctxAt]
  exact State.modCtx_view HeadCtx.state (by rfl) j

theorem State.chainNext_state (s : State) (h : Head) (w : StepWord) (j : Head) :
    ((s.chainNext h w).ctxAt j).state = (s.ctxAt j).state := by
  rw [State.chainNext, State.startStep_state, State.releaseClaims_ctxAt]

theorem State.chainSegment_state (s : State) (h : Head) (w : StepWord) (j : Head) :
    ((s.chainSegment h w).ctxAt j).state = (s.ctxAt j).state := State.startSegment_state s h _ w j

/-- No end event changes the state of a head. -/
theorem endEvent_state (n : Nat) (h : Head) (s : State) (j : Head) :
    ((endEvent n h s).state.ctxAt j).state = (s.ctxAt j).state := by
  induction n generalizing s with
  | zero => rfl
  | succ n ih =>
    unfold endEvent
    split
    · rfl
    · split
      · rw [ih, State.chainNext_state]
      · exact State.chainNext_state ..
    · split
      · rw [ih, State.chainSegment_state]
      · exact State.chainSegment_state ..

/-- The end event of a running step keeps the laws. -/
theorem State.Sound.endEvent (hs : s.Sound k) {h : Head} (hh : (s.ctxAt h).state = .heating) (hm : k.mode h = .plain)
    (n : Nat) : (endEvent n h s).state.Sound k := by
  induction n generalizing s with
  | zero => exact hs
  | succ n ih =>
    obtain ⟨w, kd, d, step, kind, desc, -⟩ := hs.runs hh hm
    have decision : s.endDecision h = decideEnd w (((s.boundDesc h).map ClassDesc.minWet).getD 0) (s.ctxAt h) := by
      rw [State.endDecision, step]
    have valid {v : StepWord} (hv : s.endDecision h = .next v ∨ s.endDecision h = .segment v) : v.kind?.isSome = true := by
      rw [decision] at hv
      exact decideEnd_kind (by rw [kind]; rfl) hv
    have bound : (s.boundDesc h).isSome = true := by rw [desc]; rfl
    have next {v : StepWord} (hv : s.endDecision h = .next v) : (s.chainNext h v).Sound k := by
      have := (hs.releaseClaims h).startStep (h := h) hh ((s.ctxAt h).stepAddr + 1) (valid (.inl hv)) bound
      rwa [Flight.put_plain hm] at this
    have segment {v : StepWord} (hv : s.endDecision h = .segment v) : (s.chainSegment h v).Sound k := by
      have := hs.startSegment (h := h) hh ((s.ctxAt h).stepAddr + 1) (valid (.inr hv)) bound
      rwa [Flight.put_plain hm] at this
    unfold Machine.endEvent
    split
    · exact hs
    · next v hv =>
      split
      · exact ih (next hv) (by rw [State.chainNext_state]; exact hh)
      · exact next hv
    · next v hv =>
      split
      · exact ih (segment hv) (by rw [State.chainSegment_state]; exact hh)
      · exact segment hv

/-! ### Cycle start (R5, R67) -/

theorem State.startCycle_state (s : State) (h : Head) (d : ClassDesc) (j : Head) :
    ((s.startCycle h d).state.ctxAt j).state = if j = h then .heating else (s.ctxAt j).state := by
  have entered : (((s.modCtx h fun c => c.started d.start).modIntake h
      fun i => { i with staleTimer := some (s.configAt h).staleness }).ctxAt j).state =
        if j = h then .heating else (s.ctxAt j).state := by
    rw [State.modIntake_ctxAt, State.modCtx_ctxAt]
    split <;> rfl
  unfold State.startCycle
  dsimp only
  split
  · split
    · exact entered
    · split
      · rw [State.takeEndEvent, endEvent_state, State.startStep_state, entered]
      · rw [State.startStep_state, entered]
  · exact entered

/-- The start of a cycle keeps the laws: the head runs its first step, or its cycle has ended and is terminated later. -/
theorem State.Sound.startCycle (hs : s.Sound k) {h : Head} {d : ClassDesc} (hr : s.readyDesc h = some d)
    (hm : k.mode h = .plain) :
    ((s.startCycle h d).ending = none → (s.startCycle h d).state.Sound k) ∧
      (s.startCycle h d).state.Sound (k.put h .deferred) := by
  obtain ⟨arming, -, desc⟩ := State.readyDesc_iff.mp hr
  have ok := hs.heads h
  obtain ⟨promoted, cause, held⟩ := ok.arming arming
  have bound : (s.ctxAt h).binding.isSome = true := by
    cases hb : (s.ctxAt h).binding with
    | none => simp [State.boundDesc, hb] at desc
    | some b => rfl
  have entered : (s.modCtx h fun c => c.started d.start).Sound (k.put h .deferred) := hs.recast
    { own := ⟨⟨⟨promoted, bound, rfl, cause, held⟩, rfl⟩, fun e => absurd rfl e, fun e => absurd rfl e,
        fun e => (by cases e), fun e => by rw [← ok.enabled, arming] at e; cases e⟩
      rest := fun e => absurd rfl e
      acc := Nat.zero_le _
      asg := fun _ => rfl, binding := rfl
      waits := fun ⟨w, hw, e⟩ => by
        have := (hs.cache.waiters.2 w hw).2.1
        rw [e] at this
        rw [this] at bound
        cases bound
      placed := fun e => by cases e
      requirements := fun e => by cases e
      running := fun _ e => by cases e
      fault := .inr ⟨fun e => (by cases e), fun e => by rw [arming] at e; cases e⟩ }
  have watched : ((s.modCtx h fun c => c.started d.start).modIntake h
      fun i => { i with staleTimer := some (s.configAt h).staleness }).Sound (k.put h .deferred) :=
    entered.modIntake fun e => absurd (by rw [State.modCtx_ctxAt_self]; rfl) e
  have heating : (((s.modCtx h fun c => c.started d.start).modIntake h
      fun i => { i with staleTimer := some (s.configAt h).staleness }).ctxAt h).state = .heating := by
    rw [State.modIntake_ctxAt, State.modCtx_ctxAt_self]; rfl
  have desc' : ((s.modCtx h fun c => c.started d.start).modIntake h
      fun i => { i with staleTimer := some (s.configAt h).staleness }).boundDesc h = some d := by
    rw [← desc]
    exact State.modCtx_boundDesc (f := fun c => c.started d.start) rfl h
  unfold State.startCycle
  dsimp only
  split
  · split
    · exact ⟨fun e => (by cases e), watched⟩
    · next hk =>
      have started := watched.startStep heating d.start (Option.isSome_iff_ne_none.mpr hk) (by rw [desc']; rfl)
      rw [Flight.put_put, Flight.put_plain hm] at started
      have runs := (State.startStep_state _ h d.start (s.store.read d.start) h).trans heating
      split
      · have := started.endEvent runs hm 1026
        exact ⟨fun _ => this, this.defer ((endEvent_state ..).trans runs)⟩
      · exact ⟨fun _ => started, started.defer runs⟩
  · exact ⟨fun e => (by cases e), watched⟩

/-! ### Starting ready heads (R52) -/

theorem State.firstReady_some {h : Head} {d : ClassDesc} (hr : s.firstReady = some (h, d)) : s.readyDesc h = some d := by
  obtain ⟨j, -, hj⟩ := List.exists_of_findSome?_eq_some hr
  cases hd : s.readyDesc j with
  | none => simp [hd] at hj
  | some x => simp only [hd, Option.map_some, Option.some.injEq, Prod.mk.injEq] at hj; rw [← hj.1, hd, hj.2]

/-- A head in ARMING whose bind request is not in hand stands as between two commands. -/
theorem State.Sound.plain_of_arming (hs : s.Sound k) {h : Head} (hh : (s.ctxAt h).state = .arming)
    (hk : k.mode h ≠ .homeless) : k.mode h = .plain := by
  have shaped := (hs.heads h).shaped
  cases hm : k.mode h with
  | plain => rfl
  | transit => rw [hm] at shaped; rw [shaped.1] at hh; cases hh
  | homeless => exact absurd hm hk
  | deferred => rw [hm] at shaped; rw [shaped.2] at hh; cases hh

/-- The start of a ready head, with the termination of a cycle that ends at its start. -/
theorem State.Sound.finishStart (hs : s.Sound k) (ho : k.owes = false) (hk : ∀ j, k.mode j ≠ .homeless) {h : Head}
    {d : ClassDesc} (hr : s.readyDesc h = some d) : ((s.startCycle h d).finish h).Sound k := by
  have hm := hs.plain_of_arming (State.readyDesc_iff.mp hr).1 (hk h)
  obtain ⟨runs, deferred⟩ := hs.startCycle hr hm
  unfold Progress.finish
  split
  · next e _ =>
    have := deferred.terminate (by rw [State.startCycle_state, if_pos rfl])
      (Flight.put_ne_homeless (by decide) hk) e
    rwa [Flight.put_put, Flight.put_plain hm, Flight.paid_of ho] at this
  · next he => exact runs he

theorem State.Sound.startLoop (hs : s.Sound k) (ho : k.owes = false) (hk : ∀ j, k.mode j ≠ .homeless) (n : Nat) :
    (startLoop n s).Sound k := by
  induction n generalizing s with
  | zero => exact hs
  | succ n ih =>
    unfold Machine.startLoop
    split
    · exact hs
    · next h d hr => exact ih (hs.finishStart ho hk (State.firstReady_some hr))

/-- The starts of ready heads keep the laws (R52). -/
theorem State.Sound.startReady (hs : s.Sound k) (ho : k.owes = false) (hk : ∀ j, k.mode j ≠ .homeless) :
    s.startReady.Sound k := hs.startLoop ho hk 32

end Sys2Proof.Machine
end

section
/-! The closing test and the end of an event keep the laws (R60, R141, R52). -/

namespace Sys2Proof.Machine

variable {s t : State} {k : Flight}

/-- A carrier with no live assignment is named by none. -/
theorem State.liveOf_zero {id : CarrierId} (h : s.liveOf id = 0) (j : Head) :
    ∀ a ∈ (s.ctxAt j).assignments, a.carrier ≠ id := by
  intro a ha he
  have : a ∈ (allHeads.flatMap fun h => (s.ctxAt h).assignments).filter fun a => a.carrier = id := by
    rw [List.mem_filter, List.mem_flatMap]
    exact ⟨⟨j, mem_allHeads j, ha⟩, by simpa using he⟩
  have := List.length_pos_of_mem this
  rw [State.liveOf] at h
  omega

theorem HeadCtx.current_mem_assignments {c : HeadCtx} {a : Current} (h : a ∈ c.current) : a.asg ∈ c.assignments := by
  rw [Option.mem_def] at h
  simp [HeadCtx.assignments, h]

/-- The state without the entry of a carrier. -/
def State.dropCarrier (s : State) (id : CarrierId) : State := { s with carriers := s.carriers.filter fun c => c.id ≠ id }

theorem State.dropCarrier_carrierAt (s : State) {i id : CarrierId} (h : id ≠ i) :
    (s.dropCarrier i).carrierAt id = s.carrierAt id := by
  unfold State.carrierAt State.dropCarrier
  rw [List.find?_filter]
  congr 1
  funext c
  by_cases hc : c.id = id
  · subst hc; simp [h]
  · simp [hc]

theorem State.holdsRecordOf_false_iff {id : CarrierId} :
    s.holdsRecordOf id = false ↔ ∀ h, ∀ r ∈ (s.ctxAt h).heldRecord, r.carrier ≠ id := by
  simp only [State.holdsRecordOf, List.any_eq_false, mem_allHeads, true_implies, Option.any_eq_true, decide_eq_true_eq]
  exact forall_congr' fun h => ⟨fun hn r hr he => hn ⟨r, hr, he⟩, fun hn ⟨r, hr, he⟩ => hn r hr he⟩

/-- A carrier with nothing live and no record held leaves the table. -/
theorem State.Sound.dropCarrier (hs : s.Sound k) {id : CarrierId} (live : s.liveOf id = 0)
    (held : s.holdsRecordOf id = false) : (s.dropCarrier id).Sound k where
  heads := hs.heads.congr rfl (fun _ => rfl) fun _ => rfl
  power := hs.power.congr rfl (fun _ => rfl) (fun _ => rfl) rfl
  cache := hs.cache.congr rfl (fun _ => rfl) rfl rfl (fun _ => rfl) fun j _ c hc => by
    rw [State.dropCarrier_carrierAt]
    exact State.liveOf_zero live j _ (HeadCtx.current_mem_assignments hc)
  books := by
    have hb := hs.books
    have sub {c : CarrierEntry} (hc : c ∈ (s.dropCarrier id).carriers) : c ∈ s.carriers := (List.mem_filter.mp hc).1
    refine ⟨⟨(List.length_filter_le _ _).trans hb.carriers.1, hb.carriers.2.sublist (List.filter_sublist.map _)⟩,
      fun j => ⟨(hb.named j).1, fun a ha => ?_⟩, fun c hc => hb.accounts c (sub hc),
      ⟨fun c hc => hb.closing.1 c (sub hc), fun j r hr => ?_⟩, hb.queue, fun hw => hb.waiting ?_⟩
    · rw [State.dropCarrier_carrierAt _ (State.liveOf_zero live j a ha)]
      exact (hb.named j).2 a ha
    · rw [State.dropCarrier_carrierAt _ (State.holdsRecordOf_false_iff.mp held j r hr)]
      exact hb.closing.2 j r hr
    · have : ((s.dropCarrier id).carriers.filter fun c => c.closing).length ≤
          (s.carriers.filter fun c => c.closing).length :=
        (List.Sublist.filter _ List.filter_sublist).length_le
      have same : ((s.dropCarrier id).recordsWaiting) = (allHeads.filter fun h => (s.ctxAt h).heldRecord.isSome).length +
          ((s.dropCarrier id).carriers.filter fun c => c.closing).length := rfl
      unfold State.recordsWaiting
      omega
  flags := hs.flags.congr rfl rfl rfl (State.claimPresent_congr fun _ => rfl) rfl rfl rfl rfl

/-- A carrier with nothing live and no record held goes to CLOSING where its record finds no room now. -/
theorem State.Sound.closeCarrier (hs : s.Sound k) {id : CarrierId}
    (hf : ∀ c ∈ s.carriers, c.id = id → c.live = 0 ∧ s.holdsRecordOf c.id = false)
    (full : Config.recordCapacity ≤ s.queue.length + k.slots) :
    (s.modCarrier id fun c => { c with closing := true }).Sound k := by
  have at' (i : CarrierId) : (s.modCarrier id fun c => { c with closing := true }).carrierAt i =
      (s.carrierAt i).map fun c => if c.id = id then { c with closing := true } else c :=
    State.modCarrier_carrierAt s id (f := fun c => { c with closing := true }) (fun _ => rfl) i
  have hb := hs.books
  have mem {c : CarrierEntry} (hc : c ∈ (s.modCarrier id fun c => { c with closing := true }).carriers) :
      ∃ d ∈ s.carriers, c = if d.id = id then { d with closing := true } else d := by
    rw [State.modCarrier_carriers, List.mem_map] at hc
    obtain ⟨d, hd, rfl⟩ := hc
    exact ⟨d, hd, rfl⟩
  refine ⟨hs.heads.congr rfl (fun _ => rfl) fun _ => rfl, hs.power.congr rfl (fun _ => rfl) (fun _ => rfl) rfl,
    hs.cache.congr rfl (fun _ => rfl) rfl rfl (fun _ => rfl) fun j _ c _ => ?_, ⟨?_, fun j => ⟨(hb.named j).1, fun a ha => ?_⟩,
      fun c hc => ?_, ⟨fun c hc hcl => ?_, fun j r hr => ?_⟩, hb.queue, fun _ => full⟩,
    hs.flags.congr rfl rfl rfl (State.claimPresent_congr fun _ => rfl) rfl rfl rfl rfl⟩
  · rw [at', Option.map_map]
    congr 1
    funext c
    simp only [Function.comp_apply]
    split <;> rfl
  · rw [State.CarriersDistinct, State.modCarrier_carriers, List.length_map, List.map_map]
    refine ⟨hb.carriers.1, ?_⟩
    have : CarrierEntry.id ∘ (fun c : CarrierEntry => if c.id = id then { c with closing := true } else c) =
        CarrierEntry.id := by
      funext c
      simp only [Function.comp_apply]
      split <;> rfl
    rw [this]
    exact hb.carriers.2
  · rw [at', Option.isSome_map]
    exact (hb.named j).2 a ha
  · obtain ⟨d, hd, rfl⟩ := mem hc
    have := hb.accounts d hd
    split
    · exact this
    · exact this
  · obtain ⟨d, hd, rfl⟩ := mem hc
    have holds (i : CarrierId) : (s.modCarrier id fun c => { c with closing := true }).holdsRecordOf i =
        s.holdsRecordOf i := rfl
    rw [holds]
    split
    · next hid => exact hf d hd hid
    · next hid =>
      rw [if_neg hid] at hcl
      exact hb.closing.1 d hd hcl
  · rw [at', Option.isSome_map]
    exact hb.closing.2 j r hr

theorem State.closes_iff {c : CarrierEntry} :
    s.closes c = true ↔ c.closing = false ∧ c.live = 0 ∧ s.holdsRecordOf c.id = false := by
  simp [State.closes, and_assoc]

theorem State.holdsRecordOf_congr (held : ∀ j, (t.ctxAt j).heldRecord = (s.ctxAt j).heldRecord) (id : CarrierId) :
    t.holdsRecordOf id = s.holdsRecordOf id := by
  simp only [State.holdsRecordOf, held]

/-- The closing test on the entries that are still listed keeps the laws. -/
theorem State.Sound.closeEntries {cs : List CarrierEntry} (hs : s.Sound k) (hm : ∀ c ∈ cs, c ∈ s.carriers)
    (hn : (cs.map CarrierEntry.id).Nodup) : (closeEntries cs s).Sound k := by
  induction cs generalizing s with
  | nil => exact hs
  | cons c cs ih =>
    obtain ⟨hc, hn⟩ := List.nodup_cons.mp hn
    have ne {d : CarrierEntry} (hd : d ∈ cs) : d.id ≠ c.id := fun e => hc (e ▸ List.mem_map_of_mem hd)
    have member := hm c List.mem_cons_self
    unfold Machine.closeEntries
    split
    · next hcl =>
      obtain ⟨-, live, held⟩ := State.closes_iff.mp hcl
      have liveOf : s.liveOf c.id = 0 := by
        have := (hs.books.accounts c member).2.1
        omega
      split
      · next room =>
        refine ih ((hs.dropCarrier liveOf held).enterRecord room _) (fun d hd => ?_) hn
        rw [State.enterRecord_carriers]
        exact List.mem_filter.mpr ⟨hm d (List.mem_cons_of_mem _ hd), by simpa using ne hd⟩
      · next room =>
        refine ih (hs.closeCarrier (fun d hd hid => ?_) ?_) (fun d hd => ?_) hn
        · rw [List.inj_on_of_nodup_map hs.books.carriers.2 hd member hid]
          exact ⟨live, held⟩
        · rw [State.queueHasRoom_iff] at room
          simp only [Config.recordCapacity]
          omega
        · rw [State.modCarrier_carriers, List.mem_map]
          exact ⟨d, hm d (List.mem_cons_of_mem _ hd), if_neg (ne hd)⟩
    · exact ih hs (fun d hd => hm d (List.mem_cons_of_mem _ hd)) hn

/-- The closing test keeps the laws (R60, R141). -/
theorem State.Sound.closeCarriers (hs : s.Sound k) : s.closeCarriers.Sound k :=
  hs.closeEntries (fun _ hc => hc) hs.books.carriers.2

/-- The end of an event of one head keeps the laws (R60, R52). -/
theorem State.Sound.conclude (hs : s.Sound k) (ho : k.owes = false) (hk : ∀ j, k.mode j ≠ .homeless) :
    s.conclude.Sound k := (hs.closeCarriers.startReady ho hk).closeCarriers

/-- The starts an event has brought keep the laws. -/
theorem State.Sound.startsDone (hs : s.Sound k) (ho : k.owes = false) (hk : ∀ j, k.mode j ≠ .homeless) :
    s.startReady.closeCarriers.Sound k := (hs.startReady ho hk).closeCarriers

/-- An event that may end the cycle of a head keeps the laws. -/
theorem State.Sound.concludeProgress {p : Progress} (hs : p.state.Sound k) (ho : k.owes = false)
    (hk : ∀ j, k.mode j ≠ .homeless) {h : Head} (hm : k.mode h = .plain) (hh : (p.state.ctxAt h).state = .heating) :
    (p.conclude h).Sound k := by
  unfold Progress.conclude
  split
  · next e _ =>
    have := hs.terminate hh hk e
    rw [Flight.put_plain hm, Flight.paid_of ho] at this
    exact this.conclude ho hk
  · exact hs

end Sys2Proof.Machine
end

section
/-! The events that change the requirements of heads in ARMING keep the laws (R51 to R58). -/

namespace Sys2Proof.Machine

variable {s t : State} {k : Flight}

/-! ### One settle timer (R58) -/

/-- A settle timer that has become idle meets the settle requirement of a head in ARMING (R58). -/
theorem State.Sound.settleDone (hs : s.Sound k) (h : Head) (hm : k.mode h = .plain) : (s.settleDone h).Sound k := by
  have ok := hs.heads h
  rw [hm] at ok
  have shape : (s.ctxAt h).Shaped := ok.shaped
  have := hs.recast (h := h) (m := .plain) (f := fun c =>
      { c with settle := none,
               reqs := if c.state = .arming then c.reqs.map fun r => { r with settle := true } else c.reqs })
    { own := ⟨?_, ok.rested, ok.unwatched, ok.enabled⟩
      rest := fun e => ⟨hs.atRest e, (hs.atRest e).acc, (hs.atRest e).limited⟩
      acc := (hs.power.integrators h).1
      asg := fun _ => rfl, binding := rfl
      waits := fun ⟨w, hw, e⟩ => by rw [← e]; exact (hs.cache.waiters.2 w hw).1
      placed := fun e _ => hs.cache.placed h e hm
      requirements := fun e _ a ha => ?_
      running := fun e _ => ?_
      fault := .inr Iff.rfl }
  · rwa [Flight.put_plain hm] at this
  · show HeadCtx.Shaped _
    unfold HeadCtx.Shaped at shape ⊢
    split at shape <;> next e => simp_all
  · have e' : (s.ctxAt h).state = .arming := e
    simp only [e', if_true]
    rw [hs.cache.requirements h e' (by rw [hm]; decide) a ha]
    rfl
  · obtain ⟨w, kd, d, step, kind, desc, -⟩ := hs.runs e hm
    exact ⟨w, step, by rw [kind]; rfl, by rw [desc]; rfl⟩

/-! ### Requirements of several heads -/

/-- A change of the requirements of heads in ARMING, with the marks of carriers and the interlock they follow. -/
theorem State.Sound.requirementsChanged (hs : s.Sound k) {reqs : Head → Option Requirements} {purge : CarrierEntry → Purge}
    {released : CarrierEntry → Bool} (ctx : ∀ j, t.ctxAt j = { s.ctxAt j with reqs := reqs j })
    (kept : ∀ j, (s.ctxAt j).state ≠ .arming → reqs j = (s.ctxAt j).reqs)
    (follow : ∀ j, (s.ctxAt j).state = .arming → k.mode j ≠ .homeless → ∀ c ∈ (s.ctxAt j).current,
      reqs j = some (t.requirementsFor j c.asg (s.boundDesc j).isSome))
    (carriers : t.carriers = s.carriers.map fun c => { c with purge := purge c, released := released c })
    (rest : t = { s with ctx := t.ctx, carriers := t.carriers, interlock := t.interlock }) : t.Sound k := by
  have cache : t.cache = s.cache := by rw [rest]
  have queue : t.queue = s.queue := by rw [rest]
  have ring : t.ring = s.ring := by rw [rest]
  have notices : t.notices = s.notices := by rw [rest]
  have entry (e : EntryIx) : t.entryAt e = s.entryAt e := by rw [State.entryAt, State.entryAt, cache]
  have row (j : Head) : t.rowAt j = s.rowAt j := by rw [rest]; rfl
  have cfg (j : Head) : t.configAt j = s.configAt j := by rw [rest]; rfl
  have intake (j : Head) : t.intakeAt j = s.intakeAt j := by rw [rest]; rfl
  have budget : t.budget = s.budget := by rw [rest]
  have desc (j : Head) : t.boundDesc j = s.boundDesc j :=
    State.boundDesc_congr (by rw [ctx]) fun b _ => by rw [entry]
  have id' (f : CarrierEntry → Bool) (hf : ∀ c p r, f { c with purge := p, released := r } = f c) :
      (t.carriers.filter f).length = (s.carriers.filter f).length := by
    rw [carriers, List.filter_map, List.length_map]
    congr 2
    funext c
    exact hf c _ _
  have at' (id : CarrierId) : (t.carrierAt id).isSome = (s.carrierAt id).isSome := by
    rw [State.carrierAt, carriers,
      find?_map_carrier (g := fun c => { c with purge := purge c, released := released c }) (fun _ => rfl), Option.isSome_map]
    rfl
  have holds (id : CarrierId) : t.holdsRecordOf id = s.holdsRecordOf id :=
    State.holdsRecordOf_congr (fun j => by rw [ctx]) id
  have live (id : CarrierId) : t.liveOf id = s.liveOf id := State.liveOf_congr (fun j => by rw [ctx]; rfl) id
  have listed {c : CarrierEntry} (hc : c ∈ t.carriers) :
      ∃ d ∈ s.carriers, c = { d with purge := purge d, released := released d } := by
    rw [carriers, List.mem_map] at hc
    obtain ⟨d, hd, rfl⟩ := hc
    exact ⟨d, hd, rfl⟩
  have hp := hs.power
  have cs := hs.cache
  have hb := hs.books
  refine ⟨fun j => ?_, ⟨?_, ?_, ?_, ?_, ?_, ?_⟩, ⟨?_, ?_, ?_, fun j b hjb => ?_, ?_, ?_, ?_, ?_, ?_, fun j hj hm c hc => ?_,
    fun j hj hm => ?_⟩, ⟨⟨?_, ?_⟩, fun j => ⟨?_, fun a ha => ?_⟩, fun c hc => ?_, ⟨fun c hc hcl => ?_, fun j r hr => ?_⟩, ?_,
    fun hw => ?_⟩, ?_⟩
  · have ok := hs.heads j
    rw [cfg, intake, ctx]
    refine ⟨?_, ok.rested, ok.unwatched, ok.enabled⟩
    by_cases hj : (s.ctxAt j).state = .arming
    · obtain ⟨promoted, cause, held⟩ := ok.arming hj
      obtain ⟨a, ha⟩ := HeadCtx.promoted_current promoted
      cases hm : k.mode j with
      | plain =>
        have := follow j hj (by rw [hm]; decide) _ ha
        simpa only [HeadCtx.ShapedAs, HeadCtx.Shaped, hj] using ⟨promoted, by rw [this]; rfl, cause, held⟩
      | homeless => exact ⟨hj, promoted, cause, held⟩
      | transit => have := hm ▸ ok.shaped; rw [this.1] at hj; cases hj
      | deferred => have := hm ▸ ok.shaped; rw [this.2] at hj; cases hj
    · rw [kept j hj]; exact ok.shaped
  · rw [State.PowerWithinBudget, budget, State.grantSum_congr (s := s) fun j => by rw [row]]; exact hp.power
  · simpa only [State.GrantsWithinDemands, row] using hp.demands
  · simpa only [State.RestingRowsEmpty, State.NoClaimOf, ctx, row] using hp.resting
  · simpa only [State.IntegratorsBounded, ctx, cfg] using hp.integrators
  · rw [State.OneDriveEach, ring]; exact hp.drives
  · simpa only [State.RestingFramesStop, ctx, ring] using hp.restingFrames
  · simpa only [State.RecencyPermutation, entry] using cs.recency
  · simpa only [State.OneMatch, entry] using cs.oneMatch
  · simpa only [State.UsersAreBound, State.boundHeads, ctx, entry] using cs.users
  · rw [ctx] at hjb
    rw [entry, State.requestedId_congr (s := s) (by rw [ctx])]
    exact cs.bindings j b hjb
  · simpa only [State.WaitersUnbound, cache, ctx] using cs.waiters
  · simpa only [entry] using cs.descriptors
  · simpa only [entry, cache] using cs.noVictim
  · simpa only [cache] using cs.owes
  · simpa only [ctx, cache] using cs.placed
  · rw [ctx] at hj hc ⊢
    rw [desc]
    exact follow j hj hm c hc
  · rw [ctx] at hj
    rw [State.runningStep_congr (s := s) (by rw [ctx]) (desc j)]
    exact cs.running j hj hm
  · rw [carriers, List.length_map]; exact hb.carriers.1
  · rw [carriers, List.map_map]; exact hb.carriers.2
  · rw [ctx]; exact (hb.named j).1
  · rw [ctx] at ha; rw [at']; exact (hb.named j).2 a ha
  · obtain ⟨d, hd, rfl⟩ := listed hc
    rw [live]
    exact hb.accounts d hd
  · obtain ⟨d, hd, rfl⟩ := listed hc
    rw [holds]
    exact hb.closing.1 d hd hcl
  · rw [ctx] at hr; rw [at']; exact hb.closing.2 j r hr
  · rw [State.QueueBounded, queue]; exact hb.queue
  · rw [queue]
    refine hb.waiting ?_
    simpa only [State.recordsWaiting, ctx, id' (fun c => c.closing) fun _ _ _ => rfl] using hw
  · refine hs.flags.congr notices (by rw [State.recordsPresent, queue]; rfl)
      (State.faultPresent_congr fun j => by rw [ctx]) (State.claimPresent_congr fun j => by rw [row]) (by rw [ring])
      (by rw [ring]) (by rw [ring]) (by rw [ring])

/-- The context of a head after a change of the requirements of some heads in ARMING. -/
theorem State.mapReqs_ctxAt (s : State) (p : Assignment → Bool) (f : Requirements → Requirements) (j : Head) :
    (s.mapReqs p f).ctxAt j = { s.ctxAt j with
      reqs := if (s.ctxAt j).state = .arming ∧ (s.ctxAt j).current.any (fun c => c.promoted && p c.asg) = true
        then (s.ctxAt j).reqs.map f else (s.ctxAt j).reqs } := by
  rw [State.mapReqs, State.mapCtx_ctxAt]
  by_cases h : (s.ctxAt j).state = .arming ∧ (s.ctxAt j).current.any (fun c => c.promoted && p c.asg) = true
  · rw [if_pos h, if_pos (by simpa using h)]
  · rw [if_neg h, if_neg (by simpa using h)]

/-- The marks of a carrier change, and the requirements of its heads with them (R51, R53 to R55). -/
theorem State.Sound.carrierMarked (hs : s.Sound k) {id : CarrierId} {purge : CarrierEntry → Purge}
    {released : CarrierEntry → Bool} {f : Requirements → Requirements}
    (hf : ∀ c ∈ s.carriers, c.id = id → ∀ b i n, f ⟨b, c.purge = .ok, c.released, i, n⟩ =
      ⟨b, purge c = .ok, released c, i, n⟩) :
    ((s.modCarrier id fun c => { c with purge := purge c, released := released c }).mapReqs
      (fun a => a.carrier = id) f).Sound k := by
  have at' (i : CarrierId) := State.modCarrier_carrierAt s id
    (f := fun c => { c with purge := purge c, released := released c }) (fun _ => rfl) i
  refine hs.requirementsChanged
    (purge := fun c => if c.id = id then purge c else c.purge)
    (released := fun c => if c.id = id then released c else c.released)
    (fun j => by rw [State.mapReqs_ctxAt]; rfl) (fun j hj => if_neg fun h : _ ∧ _ => hj h.1) (fun j hj hm c hc => ?_) ?_ ?_
  · obtain ⟨a, ha⟩ := HeadCtx.promoted_current ((hs.heads j).arming hj).1
    rw [ha] at hc
    cases hc
    obtain ⟨e, he⟩ := Option.isSome_iff_exists.mp ((hs.books.named j).2 a (HeadCtx.current_mem_assignments ha))
    obtain ⟨mem, eid⟩ := State.carrierAt_mem he
    have old := hs.cache.requirements j hj hm _ ha
    have now : ((s.modCarrier id fun c => { c with purge := purge c, released := released c }).mapReqs
        (fun a => a.carrier = id) f).carrierAt a.carrier =
          some (if e.id = id then { e with purge := purge e, released := released e } else e) := by
      have : ((s.modCarrier id fun c => { c with purge := purge c, released := released c }).mapReqs
        (fun a => a.carrier = id) f).carrierAt a.carrier =
          (s.modCarrier id fun c => { c with purge := purge c, released := released c }).carrierAt a.carrier := rfl
      rw [this, at', he]
      rfl
    have settle : (((s.modCarrier id fun c => { c with purge := purge c, released := released c }).mapReqs
        (fun a => a.carrier = id) f).ctxAt j).settle = (s.ctxAt j).settle := by rw [State.mapReqs_ctxAt]; rfl
    have lock : ((s.modCarrier id fun c => { c with purge := purge c, released := released c }).mapReqs
        (fun a => a.carrier = id) f).interlock = s.interlock := rfl
    simp only [State.modCarrier_ctxAt]
    rw [State.requirementsFor, now, settle, lock, old, State.requirementsFor, he]
    simp only [ha]
    by_cases hid : a.carrier = id
    · have hid' : e.id = id := eid.trans hid
      simp only [hj, Option.any_some, hid, decide_true, Bool.and_self, and_self, if_true, Option.map_some, if_pos hid']
      rw [hf e mem hid']
    · have hid' : ¬ e.id = id := fun h => hid (eid.symm.trans h)
      simp [hid, hid']
  · show (s.carriers.map _) = _
    refine List.map_congr_left fun c _ => ?_
    split <;> rfl
  · rfl

/-- RELEASE marks a carrier (R55). -/
theorem State.Sound.releaseCarrier (hs : s.Sound k) (ho : k.owes = false) (hk : ∀ j, k.mode j ≠ .homeless)
    (id : CarrierId) : (s.releaseCarrier id).Sound k := by
  have := hs.carrierMarked (id := id) (purge := CarrierEntry.purge) (released := fun _ => true)
    (f := fun r => { r with released := true }) fun _ _ _ _ _ _ => rfl
  exact this.startsDone ho hk

/-- PURGE marks a carrier (R53, R54). -/
theorem State.Sound.setPurge (hs : s.Sound k) (id : CarrierId) (p : Purge) :
    ((s.setPurge id p).mapReqs (fun a => a.carrier = id) fun r => { r with purge := decide (p = .ok) }).Sound k :=
  hs.carrierMarked (id := id) (purge := fun _ => p) (released := CarrierEntry.released) fun _ _ _ _ _ _ => rfl

/-- The interlock changes, and the requirement of every head in ARMING with it (R56, R57). -/
theorem State.Sound.setInterlock (hs : s.Sound k) (closed : Bool) : (s.setInterlock closed).Sound k := by
  refine hs.requirementsChanged (t := s.setInterlock closed) (purge := CarrierEntry.purge) (released := CarrierEntry.released)
    (fun j => by rw [State.setInterlock, State.mapReqs_ctxAt]; rfl) (fun j hj => if_neg fun h : _ ∧ _ => hj h.1)
    (fun j hj hm c hc => ?_) ?_ rfl
  · obtain ⟨a, ha⟩ := HeadCtx.promoted_current ((hs.heads j).arming hj).1
    have old := hs.cache.requirements j hj hm c hc
    rw [ha] at hc
    cases hc
    have ctx : ({ s with interlock := closed } : State).ctxAt j = s.ctxAt j := rfl
    have settle : ((s.setInterlock closed).ctxAt j).settle = (s.ctxAt j).settle := by
      rw [State.setInterlock, State.mapReqs_ctxAt]; rfl
    simp only [ctx]
    rw [if_pos ⟨hj, by rw [ha]; rfl⟩, old, State.requirementsFor, State.requirementsFor, settle]
    rfl
  · exact (List.map_id _).symm

end Sys2Proof.Machine
end

section
/-! The ends of the cycles of several heads, HALT and CLEAR_FAULT keep the laws (R54, R56, R82 to R85). -/

namespace Sys2Proof.Machine

variable {s t : State} {k : Flight}

/-! ### The contexts of the other heads -/

/-- A context but for what the Class Cache gives it: its binding and its requirements. -/
def HeadCtx.seat (c : HeadCtx) : HeadCtx := { c with binding := none, reqs := none }

theorem State.BoundFrom.seat {h : Head} {b : Bound} (hb : s.BoundFrom h b) (j : Head) :
    (b.state.ctxAt j).seat = (s.ctxAt j).seat := by
  obtain ⟨x, ctx⟩ := hb.ctx
  rw [ctx]
  split
  · next hj => rw [hj]; rfl
  · rfl

theorem State.setBound_seat (s : State) (h : Head) (b : Bool) (j : Head) :
    ((s.setBound h b).ctxAt j).seat = (s.ctxAt j).seat := State.modCtx_view HeadCtx.seat (by rfl) j

theorem retryWaiters_seat (ws : List Waiter) (s : State) (j : Head) :
    ((retryWaiters ws s).ctxAt j).seat = (s.ctxAt j).seat := by
  induction ws generalizing s with
  | nil => rfl
  | cons w ws ih =>
    unfold retryWaiters
    cases hb : s.tryBind w.head w.classId w.refresh with
    | none => rfl
    | some b =>
      simp only
      rw [ih, State.setBound_seat, (State.tryBind_boundFrom hb).seat]

theorem State.runRetry_seat (s : State) (j : Head) : ((s.runRetry).ctxAt j).seat = (s.ctxAt j).seat := by
  unfold State.runRetry
  split
  · exact retryWaiters_seat ..
  · rfl

theorem State.bindRequest_seat (s : State) (h : Head) (c : ClassId) (r : Bool) (j : Head) :
    ((s.bindRequest h c r).state.ctxAt j).seat = (s.ctxAt j).seat := by
  unfold State.bindRequest
  split
  · next hb => exact (State.tryBind_boundFrom hb).seat j
  · rfl

theorem State.promote_seat_of_ne (s : State) {h j : Head} (hj : j ≠ h) :
    ((s.promote h).ctxAt j).seat = (s.ctxAt j).seat := by
  unfold State.promote
  split
  · rfl
  · rw [State.runRetry_seat, State.modCtx_ctxAt_of_ne _ hj, State.bindRequest_seat, State.modCtx_ctxAt_of_ne _ hj]

theorem State.nextWork_seat_of_ne (s : State) {h j : Head} (hj : j ≠ h) :
    ((s.nextWork h).ctxAt j).seat = (s.ctxAt j).seat := by
  unfold State.nextWork
  split
  · exact s.promote_seat_of_ne hj
  · rw [State.runRetry_seat, State.modCtx_ctxAt_of_ne _ hj]

theorem State.unbind_seat (s : State) (h j : Head) : ((s.unbind h).ctxAt j).seat = (s.ctxAt j).seat := by
  rw [State.unbind_ctxAt]
  split
  · next hj => rw [hj]; rfl
  · rfl

theorem State.settleHead_seat_of_ne (s : State) {h j : Head} (hj : j ≠ h) (o : CycleOutcome) (e : Bool) :
    ((s.settleHead h o e).ctxAt j).seat = (s.ctxAt j).seat := by
  have faulted (u : State) (cause : FaultCause) : ((u.enterFaulted h cause).ctxAt j).seat = (u.ctxAt j).seat :=
    congrArg HeadCtx.seat
      (State.modCtx_ctxAt_of_ne u hj fun c => { c.advance with state := .faulted, cause := some cause })
  unfold State.settleHead
  split
  · rw [State.runRetry_seat, faulted, State.unbind_seat]
  · dsimp only
    split
    · rw [State.nextWork_seat_of_ne _ hj, State.modCtx_ctxAt_of_ne _ hj, State.unbind_seat]
    · rw [State.runRetry_seat, State.modCtx_ctxAt_of_ne _ hj, State.modCtx_ctxAt_of_ne _ hj, State.unbind_seat]

/-- A termination leaves the other heads, but for the bindings a retry brings. -/
theorem State.terminate_seat_of_ne (s : State) {h j : Head} (hj : j ≠ h) (e : Ending) :
    ((s.terminate h e).ctxAt j).seat = (s.ctxAt j).seat := by
  unfold State.terminate
  dsimp only
  rw [State.settleHead_seat_of_ne _ hj, State.reportEnd, State.modCarrier_ctxAt, State.offerJoint_ctxAt,
    if_neg fun h => hj h.1, State.modCtx_ctxAt_of_ne _ hj, State.modIntake_ctxAt, State.stop_ctxAt]

theorem HeadCtx.state_of_seat {c d : HeadCtx} (h : c.seat = d.seat) : c.state = d.state := congrArg (fun x => x.state) h

theorem State.terminate_state_of_ne (s : State) {h j : Head} (hj : j ≠ h) (e : Ending) :
    ((s.terminate h e).ctxAt j).state = (s.ctxAt j).state := HeadCtx.state_of_seat (s.terminate_seat_of_ne hj e)

/-- A HEATING head stays HEATING while ready heads start. -/
theorem startLoop_heating (n : Nat) {s : State} {j : Head} (hj : (s.ctxAt j).state = .heating) :
    ((startLoop n s).ctxAt j).state = .heating := by
  induction n generalizing s with
  | zero => exact hj
  | succ n ih =>
    unfold startLoop
    split
    · exact hj
    · next h d hr =>
      have hne : j ≠ h := by
        rintro rfl
        have := (State.readyDesc_iff.mp (State.firstReady_some hr)).1
        rw [hj] at this
        cases this
      have started : ((s.startCycle h d).state.ctxAt j).state = .heating := by
        rw [State.startCycle_state, if_neg hne, hj]
      refine ih ?_
      unfold Progress.finish
      split
      · rw [State.terminate_state_of_ne _ hne, started]
      · exact started

/-! ### The cycles of several heads (R54, R56) -/

/-- The ends of several cycles keep the laws. -/
theorem State.Sound.endCycles {hs : List Head} (hl : s.Sound k) (ho : k.owes = false) (hk : ∀ j, k.mode j = .plain)
    (hn : hs.Nodup) (hh : ∀ h ∈ hs, (s.ctxAt h).state = .heating) (o : CycleOutcome) : (endCycles o hs s).Sound k := by
  induction hs generalizing s with
  | nil => exact hl
  | cons h hs ih =>
    obtain ⟨hnot, hn⟩ := List.nodup_cons.mp hn
    have away (j : Head) : k.mode j ≠ .homeless := by rw [hk]; decide
    have ended := hl.terminate (hh h List.mem_cons_self) away (s.endingNow h o)
    rw [Flight.put_plain (hk h), Flight.paid_of ho] at ended
    refine ih (ended.startReady ho away) hn fun j hj => startLoop_heating 32 ?_
    have hne : j ≠ h := by rintro rfl; exact hnot hj
    rw [State.terminate_state_of_ne _ hne]
    exact hh j (List.mem_cons_of_mem _ hj)

theorem State.heatingHeads_heating (s : State) : ∀ h ∈ s.heatingHeads, (s.ctxAt h).state = .heating := fun h hh => by
  simpa [State.heatingHeads] using (List.mem_filter.mp hh).2

theorem State.heatingOf_heating (s : State) (id : CarrierId) : ∀ h ∈ s.heatingOf id, (s.ctxAt h).state = .heating :=
  fun h hh => by
    have := (List.mem_filter.mp hh).2
    rw [Bool.and_eq_true, decide_eq_true_eq] at this
    exact this.1

/-- The interlock opening keeps the laws (R56). -/
theorem State.Sound.openInterlock (hs : s.Sound k) (ho : k.owes = false) (hk : ∀ j, k.mode j = .plain) :
    s.openInterlock.Sound k :=
  ((hs.setInterlock false).endCycles ho hk (allHeads_nodup.filter _) (State.heatingHeads_heating _) _).closeCarriers

/-- The interlock closing keeps the laws (R57). -/
theorem State.Sound.closeInterlock (hs : s.Sound k) (ho : k.owes = false) (hk : ∀ j, k.mode j = .plain) :
    s.closeInterlock.Sound k := (hs.setInterlock true).startsDone ho fun j => by rw [hk]; decide

/-! ### HALT (R82 to R84) -/

theorem State.promote_modCtx_state (s : State) {h : Head} (hc : (s.ctxAt h).current.isSome = true) (st : HeadState) :
    (s.modCtx h fun c => { c with state := st }).promote h = s.promote h := by
  have := State.nextWork_modCtx_state s h st
  unfold State.nextWork at this
  rw [State.modCtx_ctxAt_self, if_pos hc, if_pos hc] at this
  exact this

/-- A HALT of a head in ARMING keeps the laws (R83). -/
theorem State.Sound.haltArming (hs : s.Sound k) (ho : k.owes = false) (hk : ∀ j, k.mode j ≠ .homeless) {h : Head}
    (hh : (s.ctxAt h).state = .arming) (drop : Bool) : (s.haltArming h drop).Sound k := by
  have hm := hs.plain_of_arming hh (hk h)
  have discarded := hs.discardCurrent hh
  have away : ∀ j, (k.put h .transit).owing.mode j ≠ .homeless := Flight.put_ne_homeless (by decide) hk
  have mode : (k.put h .transit).owing.mode h = .transit := by simp
  have held : ((s.discardCurrent h).ctxAt h).heldRecord = none := by
    rw [State.discardCurrent_heldRecord]; exact ((hs.heads h).arming hh).2.2
  have flight : ((k.put h .transit).owing.put h .plain).paid = k := by
    rw [Flight.rested, Flight.put_plain hm, Flight.paid_of ho]
  have next : ((s.discardCurrent h).ctxAt h).next = none := by
    obtain ⟨a, ha⟩ := HeadCtx.promoted_current ((hs.heads h).arming hh).1
    have := congrArg (fun u => (u.ctxAt h).next) (State.discardCurrent_eq (s := s) ha)
    rw [State.modCtx_ctxAt_self, State.dismiss, State.modCarrier_ctxAt, State.vacate_ctxAt_self] at this
    exact this
  unfold State.haltArming
  dsimp only
  split
  · have dropped := discarded.discardWaiting mode (by rw [State.modCtx_ctxAt_self]; exact next)
    have order : ((s.discardCurrent h).modCtx h fun c => { c with state := .idle }).discardWaiting h =
        ((s.discardCurrent h).discardWaiting h).modCtx h fun c => { c with state := .idle } := by
      unfold State.discardWaiting
      rw [State.modCtx_ctxAt_self]
      cases ((s.discardCurrent h).ctxAt h).current with
      | none => rfl
      | some cur =>
        have swap (u : State) (id : CarrierId) (f : HeadCtx → HeadCtx) :
          (u.reportDiscard id).modCtx h f = (u.modCtx h f).reportDiscard id := rfl
        simp only [swap, State.modCtx_modCtx]
    rw [order] at dropped
    have kept : ((((s.discardCurrent h).discardWaiting h).modCtx h fun c => { c with state := .idle }).ctxAt h).heldRecord
        = none := by
      rw [State.modCtx_ctxAt_self, ← held]
      unfold State.discardWaiting
      split
      · simp [State.reportDiscard]
      · rfl
    have := dropped.nextWork mode away kept
    rw [State.nextWork_modCtx_state] at this
    rwa [show (k.put h .transit).owing.owing = (k.put h .transit).owing from rfl, flight] at this
  · have := discarded.nextWork mode away (by rw [State.modCtx_ctxAt_self]; exact held)
    rwa [State.nextWork_modCtx_state, flight] at this

theorem State.haltCodeOf_active {h : Head} (hc : s.haltCodeOf h = .haltedActive) : (s.ctxAt h).state = .heating := by
  unfold State.haltCodeOf at hc
  split at hc
  · cases hc
  · split at hc
    · assumption
    · cases hc
    · cases hc

theorem State.haltCodeOf_arming {h : Head} (hc : s.haltCodeOf h = .haltedArming) : (s.ctxAt h).state = .arming := by
  unfold State.haltCodeOf at hc
  split at hc
  · cases hc
  · split at hc
    · cases hc
    · assumption
    · cases hc

/-- HALT of one head keeps the laws (R83). -/
theorem State.Sound.haltHead (hs : s.Sound k) (ho : k.owes = false) (hk : ∀ j, k.mode j = .plain) (h : Head)
    (drop : Bool) : (s.haltHead h drop).Sound k := by
  have away (j : Head) : k.mode j ≠ .homeless := by rw [hk]; decide
  unfold State.haltHead
  split
  · next hc =>
    have := hs.terminate (State.haltCodeOf_active hc) away (s.endingNow h .halted)
    rwa [Flight.put_plain (hk h), Flight.paid_of ho] at this
  · next hc => exact hs.haltArming ho away (State.haltCodeOf_arming hc) drop
  · exact hs
  · exact hs

theorem State.Sound.haltOne (hs : s.Sound k) (ho : k.owes = false) (hk : ∀ j, k.mode j = .plain) (h : Head)
    (drop : Bool) : (s.haltOne h drop).Sound k := by
  have away (j : Head) : k.mode j ≠ .homeless := by rw [hk]; decide
  unfold State.haltOne
  split
  · exact (hs.haltHead ho hk h drop).conclude ho away
  · exact (hs.haltHead ho hk h drop).conclude ho away
  · exact hs
  · exact hs

theorem State.Sound.haltHeads (hs : s.Sound k) (ho : k.owes = false) (hk : ∀ j, k.mode j = .plain) (drop : Bool)
    (l : List Head) : (haltHeads drop l s).state.Sound k := by
  induction l generalizing s with
  | nil => exact hs
  | cons h l ih => exact ih ((hs.haltHead ho hk h drop).startReady ho fun j => by rw [hk]; decide)

/-! ### CLEAR_FAULT (R85) -/

/-- The clearing of a fault keeps the laws (R85). -/
theorem State.Sound.clearFault (hs : s.Sound k) (ho : k.owes = false) (hk : ∀ j, k.mode j = .plain) {h : Head}
    (hh : (s.ctxAt h).state = .faulted) : (s.clearFault h).Sound k := by
  have ok := hs.heads h
  rw [hk] at ok
  have cold : (s.ctxAt h).state ≠ .heating := by rw [hh]; decide
  have rest := hs.atRest cold
  have shape : (s.ctxAt h).Shaped := ok.shaped
  simp only [HeadCtx.Shaped, hh] at shape
  obtain ⟨waiting, order, unbound, reqs, -⟩ := shape
  have enabled : ¬ (s.configAt h).enable = false := fun he => by
    have := ok.enabled.mpr he
    rw [hh] at this
    cases this
  have away (j : Head) : (k.put h .transit).mode j ≠ .homeless :=
    Flight.put_ne_homeless (by decide) (fun j => by rw [hk]; decide) j
  have mode : (k.put h .transit).mode h = .transit := by simp
  have back : (k.put h .transit).put h .plain = k := by rw [Flight.put_put, Flight.put_plain (hk h)]
  have cleared : (((s.modCtx h fun c => { c with cause := none }).reportFault).modCtx h
      fun c => { c with state := .idle }).Sound (k.put h .transit) := by
    rw [State.modCtx_reportFault, State.modCtx_modCtx]
    exact hs.reportFault.recast
      { own := ⟨⟨rfl, waiting, order, unbound, reqs, rfl⟩, fun _ => ok.rested cold, fun _ => rest.stale,
          fun e => (by cases e), fun e => absurd e enabled⟩
        rest := fun _ => ⟨hs.reportFault.atRest cold, rest.acc, rest.limited⟩
        acc := (hs.power.integrators h).1
        asg := fun _ => rfl, binding := rfl
        waits := fun ⟨w, hw, e⟩ => absurd e (hs.absent (by rw [hh]; decide) w hw)
        placed := fun e => by cases e
        requirements := fun e => by cases e
        running := fun e => by cases e
        fault := .inl rfl }
  have ctx : (((s.modCtx h fun c => { c with cause := none }).reportFault).modCtx h
      fun c => { c with state := .idle }).ctxAt h = { s.ctxAt h with cause := none, state := .idle } := by
    rw [State.modCtx_reportFault, State.modCtx_modCtx, State.modCtx_ctxAt_self]
    rfl
  have come (st : HeadState) (hst : st = .held ∨ st = .idle)
      (hshape : ({ s.ctxAt h with state := st, cause := none } : HeadCtx).Shaped) :
      (((s.modCtx h fun c => { c with cause := none }).reportFault).modCtx h fun c => { c with state := st }).Sound k := by
    have := cleared.restAs mode (st := st) (cause := none) (by rcases hst with e | e <;> rw [e] <;> decide)
      (by rcases hst with e | e <;> rw [e] <;> decide) (by rcases hst with e | e <;> rw [e] <;> decide)
      (by rw [ctx]; exact hshape) (.inr (by rcases hst with e | e <;> rw [e] <;> decide))
    rw [back, State.modCtx_modCtx] at this
    rwa [State.modCtx_congr (g := fun c => { c with state := st, cause := none })]
    rw [State.modCtx_reportFault, State.modCtx_ctxAt_self]
  unfold State.clearFault
  dsimp only
  unfold HeadCtx.clearedState
  cases hr : (s.ctxAt h).heldRecord with
  | some r =>
    simp only [Option.isSome_some, if_true]
    refine come .held (.inl rfl) ⟨waiting, order, unbound, reqs, rfl, by simp [hr]⟩
  | none =>
    cases hc : (s.ctxAt h).current with
    | some cur =>
      simp only [Option.isSome_none, Bool.false_eq_true, if_false, Option.isSome_some, if_true]
      have := cleared.promote mode away (by rw [ctx]; simp [hc]) (by rw [ctx]; exact hr)
      rwa [State.promote_modCtx_state, Flight.put_put, Flight.put_plain (hk h), Flight.paid_of ho] at this
      rw [State.modCtx_reportFault, State.modCtx_ctxAt_self]
      show ((s.ctxAt h).current).isSome = true
      rw [hc]
      rfl
    | none =>
      simp only [Option.isSome_none, Bool.false_eq_true, if_false]
      refine come .idle (.inr rfl) ⟨hc, ?_, unbound, reqs, rfl, hr⟩
      by_contra hn
      have := order (Option.isSome_iff_ne_none.mpr hn)
      rw [hc] at this
      cases this

end Sys2Proof.Machine
end

section
/-! READ_RECORDS with its refill keeps the laws (R142 to R146). -/

namespace Sys2Proof.Machine

variable {s t u : State} {k : Flight}

/-! ### What binding and promotion leave untouched -/

/-- From `s` to `t` only contexts, cache entries, the cache-wait list and the general queue have changed. -/
structure State.BindsOnly (s t : State) : Prop where
  base : t.base = s.base
  fetchLimit : t.cache.fetchLimit = s.cache.fetchLimit
  carriers : t.carriers = s.carriers
  queue : t.queue = s.queue
  share : t.share = s.share
  intake : t.intake = s.intake
  notices : t.notices = s.notices
  ring : { t.ring with general := [] } = { s.ring with general := [] }

theorem State.BindsOnly.refl (s : State) : s.BindsOnly s := ⟨rfl, rfl, rfl, rfl, rfl, rfl, rfl, rfl⟩

theorem State.BindsOnly.trans (h : s.BindsOnly t) (h' : t.BindsOnly u) : s.BindsOnly u :=
  ⟨h'.base.trans h.base, h'.fetchLimit.trans h.fetchLimit, h'.carriers.trans h.carriers, h'.queue.trans h.queue,
    h'.share.trans h.share, h'.intake.trans h.intake, h'.notices.trans h.notices, h'.ring.trans h.ring⟩

theorem State.bindsOnly_modCtx (s : State) (h : Head) (f : HeadCtx → HeadCtx) : s.BindsOnly (s.modCtx h f) :=
  ⟨rfl, rfl, rfl, rfl, rfl, rfl, rfl, rfl⟩

theorem State.bindsOnly_bindTo (s : State) (h : Head) (e : EntryIx) (v : Nat) : s.BindsOnly (s.bindTo h e v) :=
  ⟨rfl, rfl, rfl, rfl, rfl, rfl, rfl, rfl⟩

theorem State.bindsOnly_fetchInto (s : State) (h : Head) (c : ClassId) (v : EntryIx) : s.BindsOnly (s.fetchInto h c v) := by
  have bound : s.BindsOnly (s.fetched h c v) := ⟨rfl, rfl, rfl, rfl, rfl, rfl, rfl, rfl⟩
  rw [State.fetchInto_eq]
  rcases (s.fetched h c v).offerFetch_cases c with e | ⟨-, f, -, e⟩
  · rw [e]; exact bound
  · rw [e]; exact bound.trans ⟨rfl, rfl, rfl, rfl, rfl, rfl, rfl, rfl⟩

theorem State.bindsOnly_tryBind {h : Head} {c : ClassId} {r : Bool} {b : Bound} (hb : s.tryBind h c r = some b) :
    s.BindsOnly b.state := by
  have := s.lookup h c r
  rw [hb] at this
  cases this with
  | resident => exact s.bindsOnly_bindTo ..
  | fetching => exact s.bindsOnly_bindTo ..
  | @refreshed e =>
    have dropped : s.BindsOnly (s.invalidate e) := ⟨rfl, rfl, rfl, rfl, rfl, rfl, rfl, rfl⟩
    exact dropped.trans ((s.invalidate e).bindsOnly_fetchInto ..)
  | missed => exact s.bindsOnly_fetchInto ..

theorem State.bindsOnly_bindRequest (s : State) (h : Head) (c : ClassId) (r : Bool) :
    s.BindsOnly (s.bindRequest h c r).state := by
  unfold State.bindRequest
  split
  · next hb => exact State.bindsOnly_tryBind hb
  · exact ⟨rfl, rfl, rfl, rfl, rfl, rfl, rfl, rfl⟩

theorem bindsOnly_retryWaiters (ws : List Waiter) (s : State) : s.BindsOnly (retryWaiters ws s) := by
  induction ws generalizing s with
  | nil => exact ⟨rfl, rfl, rfl, rfl, rfl, rfl, rfl, rfl⟩
  | cons w ws ih =>
    unfold retryWaiters
    cases hb : s.tryBind w.head w.classId w.refresh with
    | none => exact ⟨rfl, rfl, rfl, rfl, rfl, rfl, rfl, rfl⟩
    | some b => exact (State.bindsOnly_tryBind hb).trans ((b.state.bindsOnly_modCtx ..).trans (ih _))

theorem State.bindsOnly_runRetry (s : State) : s.BindsOnly s.runRetry := by
  unfold State.runRetry
  split
  · exact (bindsOnly_retryWaiters ..).trans ⟨rfl, rfl, rfl, rfl, rfl, rfl, rfl, rfl⟩
  · exact .refl s

theorem State.bindsOnly_promote (s : State) (h : Head) : s.BindsOnly (s.promote h) := by
  unfold State.promote
  split
  · exact .refl s
  · exact (s.bindsOnly_modCtx ..).trans
      ((State.bindsOnly_bindRequest ..).trans ((State.bindsOnly_modCtx ..).trans (State.bindsOnly_runRetry _)))

theorem State.bindsOnly_nextWork (s : State) (h : Head) : s.BindsOnly (s.nextWork h) := by
  unfold State.nextWork
  split
  · exact s.bindsOnly_promote h
  · exact (s.bindsOnly_modCtx ..).trans (State.bindsOnly_runRetry _)

/-! ### The flight of a refill -/

/-- The flight of a refill with `n` slots left: the heads of the terminations put off are deferred (R143). -/
def Flight.refilling (ds : List Deferred) (n : Nat) : Flight :=
  { mode := fun j => if j ∈ ds.map Deferred.head then .deferred else .plain, slots := n }

theorem Flight.refilling_mode (ds : List Deferred) (n : Nat) (j : Head) :
    (Flight.refilling ds n).mode j = if j ∈ ds.map Deferred.head then .deferred else .plain := rfl
@[simp] theorem Flight.refilling_owes (ds : List Deferred) (n : Nat) : (Flight.refilling ds n).owes = false := rfl
@[simp] theorem Flight.refilling_slots (ds : List Deferred) (n : Nat) : (Flight.refilling ds n).slots = n := rfl

theorem Flight.refilling_nil : Flight.refilling [] 0 = Flight.none := by
  simp [Flight.refilling, Flight.none]

theorem Flight.refilling_ne_homeless (ds : List Deferred) (n : Nat) (j : Head) :
    (Flight.refilling ds n).mode j ≠ .homeless := by
  rw [Flight.refilling_mode]
  split <;> decide

theorem Flight.refilling_append (ds : List Deferred) (n : Nat) (d : Deferred) :
    (Flight.refilling ds n).put d.head .deferred = Flight.refilling (ds ++ [d]) n := by
  simp only [Flight.refilling, Flight.put, Flight.mk.injEq, and_true]
  funext j
  rw [Function.update_apply]
  by_cases hj : j = d.head <;> simp [hj]

theorem Flight.refilling_cons {ds : List Deferred} {d : Deferred} (n : Nat) (hd : d.head ∉ ds.map Deferred.head) :
    (Flight.refilling (d :: ds) n).put d.head .plain = Flight.refilling ds n := by
  simp only [Flight.refilling, Flight.put, Flight.mk.injEq, and_true]
  funext j
  rw [Function.update_apply]
  by_cases hj : j = d.head
  · subst hj; rw [if_pos rfl, if_neg hd]
  · simp [hj]

theorem Flight.refilling_congr {ds es : List Deferred} (n : Nat)
    (h : ∀ j, j ∈ ds.map Deferred.head ↔ j ∈ es.map Deferred.head) : Flight.refilling ds n = Flight.refilling es n := by
  simp only [Flight.refilling, Flight.mk.injEq, and_true]
  funext j
  simp only [h]

/-- The slots of the flight may be named afresh where the queue is as full. -/
theorem State.Sound.withSlots (hs : s.Sound k) {n : Nat}
    (h : 0 < s.recordsWaiting → Config.recordCapacity ≤ s.queue.length + n) : s.Sound { k with slots := n } :=
  ⟨hs.heads, hs.power, { hs.cache with },
    ⟨hs.books.carriers, hs.books.named, hs.books.accounts, hs.books.closing, hs.books.queue, h⟩, hs.flags⟩

/-! ### Starts within a refill (R143) -/

theorem State.Sound.startDeferring {ds : List Deferred} {n : Nat} (hs : s.Sound (.refilling ds n))
    (hn : (ds.map Deferred.head).Nodup) (m : Nat) :
    (startDeferring m s ds).state.Sound (.refilling (startDeferring m s ds).deferred n) ∧
      ((startDeferring m s ds).deferred.map Deferred.head).Nodup := by
  induction m generalizing s ds with
  | zero => exact ⟨hs, hn⟩
  | succ m ih =>
    unfold Machine.startDeferring
    split
    · exact ⟨hs, hn⟩
    · next h d hr =>
      have ready := State.firstReady_some hr
      have plain := hs.plain_of_arming (State.readyDesc_iff.mp ready).1 (Flight.refilling_ne_homeless ds n h)
      have new : h ∉ ds.map Deferred.head := by
        intro hm
        rw [Flight.refilling_mode, if_pos hm] at plain
        cases plain
      obtain ⟨runs, deferred⟩ := hs.startCycle ready plain
      dsimp only
      split
      · next e _ =>
        refine ih (ds := ds ++ [{ head := h, ending := e }]) ?_ ?_
        · rw [← Flight.refilling_append]; exact deferred
        · rw [List.map_append, List.nodup_append]
          refine ⟨hn, by simp, fun a ha b hb => ?_⟩
          obtain rfl : b = h := by simpa using hb
          rintro rfl
          exact new ha
      · next he => exact ih (runs he) hn

/-! ### Records that waited enter (R142, R143) -/

theorem State.firstHeld_some {h : Head} {r : JointRecord} (hf : s.firstHeld = some (h, r)) :
    (s.ctxAt h).heldRecord = some r := by
  obtain ⟨j, -, hj⟩ := List.exists_of_findSome?_eq_some hf
  cases hr : (s.ctxAt j).heldRecord with
  | none => simp [hr] at hj
  | some x => simp only [hr, Option.map_some, Option.some.injEq, Prod.mk.injEq] at hj; rw [← hj.1, hr, hj.2]

theorem State.firstHeld_none (hf : s.firstHeld = none) (j : Head) : (s.ctxAt j).heldRecord = none := by
  unfold State.firstHeld at hf
  rw [List.findSome?_eq_none_iff] at hf
  simpa using hf j (mem_allHeads j)

/-- The books once the record a head holds has been taken from it. -/
theorem State.BooksSound.takeHeld (hb : s.BooksSound k) {h : Head} {f : HeadCtx → HeadCtx}
    (asg : (f (s.ctxAt h)).current.map Current.asg = (s.ctxAt h).current.map Current.asg)
    (next : (f (s.ctxAt h)).next = (s.ctxAt h).next) (held : (f (s.ctxAt h)).heldRecord = none) :
    (s.modCtx h f).BooksSound k := by
  have asgs (j : Head) : ((s.modCtx h f).ctxAt j).assignments = (s.ctxAt j).assignments :=
    State.modCtx_view HeadCtx.assignments (by rw [HeadCtx.assignments, HeadCtx.assignments, asg, next]) j
  have less {j : Head} {r : JointRecord} (hr : r ∈ ((s.modCtx h f).ctxAt j).heldRecord) : r ∈ (s.ctxAt j).heldRecord := by
    rw [State.modCtx_ctxAt] at hr
    split at hr
    · rw [held] at hr; cases hr
    · exact hr
  have at' (id : CarrierId) : (s.modCtx h f).carrierAt id = s.carrierAt id := by simp [State.carrierAt]
  refine ⟨hb.carriers, ?_, ?_, ⟨fun c hc hcl => ?_, fun j r hr => ?_⟩, hb.queue, fun hw => hb.waiting ?_⟩
  · simpa only [State.AssignmentsNamed, asgs, at'] using hb.named
  · simpa only [State.modCtx_carriers, State.liveOf_congr asgs] using hb.accounts
  · obtain ⟨live, holds⟩ := hb.closing.1 c hc hcl
    exact ⟨live, State.holdsRecordOf_false_iff.mpr fun j r hr => State.holdsRecordOf_false_iff.mp holds j r (less hr)⟩
  · rw [at']; exact hb.closing.2 j r (less hr)
  · have : (allHeads.filter fun j => ((s.modCtx h f).ctxAt j).heldRecord.isSome).length ≤
        (allHeads.filter fun j => (s.ctxAt j).heldRecord.isSome).length := by
      refine (List.monotone_filter_right _ fun j hj => ?_).length_le
      obtain ⟨r, hr⟩ := Option.isSome_iff_exists.mp hj
      rw [less hr]
      rfl
    have waits : (s.modCtx h f).recordsWaiting =
      (allHeads.filter fun j => ((s.modCtx h f).ctxAt j).heldRecord.isSome).length +
        (s.carriers.filter fun c => c.closing).length := rfl
    unfold State.recordsWaiting
    omega

/-- The entry of a held record keeps the laws, with one slot of the refill used (R76). -/
theorem State.Sound.enterHeld {n : Nat} (hs : s.Sound k) (hn : k.slots = n + 1) (ho : k.owes = false)
    (hk : ∀ j, k.mode j ≠ .homeless) {h : Head} {r : JointRecord} (hr : (s.ctxAt h).heldRecord = some r)
    (hm : k.mode h = .plain) (room : s.queueHasRoom = true) :
    (s.enterHeld h r).Sound { k with slots := n } ∧ Config.recordCapacity ≤ (s.enterHeld h r).queue.length + n := by
  have ok := hs.heads h
  rw [hm] at ok
  have shape : (s.ctxAt h).Shaped := ok.shaped
  have full := hs.books.waiting (State.recordsWaiting_pos_of_held (h := h) (by rw [hr]; rfl))
  rw [hn] at full
  have cold : (s.ctxAt h).state ≠ .heating := fun e => by
    have := (ok.heating e).2.2.2.2
    rw [hr] at this
    cases this
  have rest := hs.atRest cold
  have absent : (s.ctxAt h).state ≠ .arming := fun e => by
    have := (ok.arming e).2.2
    rw [hr] at this
    cases this
  have enters (m : HeadMode) (st : HeadState) (own : HeadOk m { s.ctxAt h with heldRecord := none, state := st }
      (s.intakeAt h).staleTimer (s.configAt h).enable) (hst : st ≠ .arming ∧ st ≠ .heating)
      (fault : st = .faulted ↔ (s.ctxAt h).state = .faulted) :
      ((s.modCtx h fun c => { c with heldRecord := none, state := st }).enterRecord (.joint r)).Sound
        { k.put h m with slots := n } := by
    have taken := hs.recastBooks (h := h) (m := m) (f := fun c => { c with heldRecord := none, state := st })
      { own
        rest := fun _ => ⟨rest, rest.acc, rest.limited⟩
        acc := (hs.power.integrators h).1
        asg := fun _ => rfl, binding := rfl
        waits := fun ⟨w, hw, e⟩ => absurd e (hs.absent absent w hw)
        placed := fun e => absurd e hst.1
        requirements := fun e => absurd e hst.1
        running := fun e => absurd e hst.2
        fault := .inr fault } (hs.books.takeHeld rfl rfl rfl)
    refine (taken.enterRecord room _).withSlots fun _ => ?_
    simp only [State.enterRecord_queue, State.modCtx_queue, List.length_append, List.length_cons, List.length_nil]
    omega
  have length : (s.enterHeld h r).queue.length = s.queue.length + 1 := by
    unfold State.enterHeld
    dsimp only
    split
    · rw [(State.bindsOnly_nextWork _ h).queue]; simp
    · simp
  refine ⟨?_, by rw [length]; omega⟩
  unfold State.enterHeld
  dsimp only
  split
  · next hst =>
    simp only [HeadCtx.Shaped, hst] at shape
    obtain ⟨waiting, order, unbound, reqs, cause, -⟩ := shape
    have enabled : ¬ (s.configAt h).enable = false := fun he => by
      have := ok.enabled.mpr he
      rw [hst] at this
      cases this
    have entered := enters .transit .idle ⟨⟨rfl, waiting, order, unbound, reqs, cause⟩, fun _ => ok.rested cold,
      fun _ => rest.stale, fun e => (by cases e), fun e => absurd e enabled⟩ ⟨by decide, by decide⟩
      ⟨fun e => (by cases e), fun e => by rw [hst] at e; cases e⟩
    have swap : (s.modCtx h fun c => { c with heldRecord := none, state := .idle }).enterRecord (.joint r) =
        ((s.modCtx h fun c => { c with heldRecord := none }).enterRecord (.joint r)).modCtx h
          fun c => { c with state := .idle } := by
      have order (u : State) (f : HeadCtx → HeadCtx) :
        (u.enterRecord (.joint r)).modCtx h f = (u.modCtx h f).enterRecord (.joint r) := rfl
      rw [order, State.modCtx_modCtx]
    rw [swap] at entered
    have := entered.nextWork (h := h) (by show (k.put h .transit).mode h = _; simp)
      (Flight.put_ne_homeless (by decide) hk) (by rw [State.modCtx_ctxAt_self]; simp)
    rw [State.nextWork_modCtx_state] at this
    have flight : (({ k.put h .transit with slots := n } : Flight).put h .plain).paid = { k with slots := n } := by
      have : ({ k.put h .transit with slots := n } : Flight).put h .plain = { k with slots := n } := by
        rw [show ({ k.put h .transit with slots := n } : Flight) = ({ k with slots := n } : Flight).put h .transit from rfl,
          Flight.put_put]
        exact Flight.put_plain hm
      rw [this]
      exact Flight.paid_of ho
    rwa [flight] at this
  · next hst =>
    have state : (s.ctxAt h).state = .faulted := by
      unfold HeadCtx.Shaped at shape
      split at shape
      · next e => simp [hr] at shape
      · next e => simp [hr] at shape
      · next e => exact absurd e absent
      · next e => exact absurd e cold
      · next e => exact absurd e hst
      · next e => exact e
    have same : (s.modCtx h fun c => { c with heldRecord := none }) =
        s.modCtx h fun c => { c with heldRecord := none, state := .faulted } := State.modCtx_congr (by simp [state])
    simp only [HeadCtx.Shaped, state] at shape
    have := enters .plain .faulted ⟨shape, fun _ => ok.rested cold, fun _ => rest.stale, fun e => (by cases e), fun e => by
      have := ok.enabled.mpr e
      rw [state] at this
      cases this⟩ ⟨by decide, by decide⟩ (by simp [state])
    rw [same]
    rwa [Flight.put_plain hm] at this

/-- The closing test within a refill keeps the laws (R143). -/
theorem State.Sound.markClosing (hs : s.Sound k) (id : CarrierId)
    (full : Config.recordCapacity ≤ s.queue.length + k.slots) : (s.markClosing id).Sound k := by
  by_cases hc : ∃ c, s.carrierAt id = some c ∧ s.closes c = true
  · obtain ⟨c, hc, closes⟩ := hc
    obtain ⟨mem, hid⟩ := State.carrierAt_mem hc
    obtain ⟨-, live, held⟩ := State.closes_iff.mp closes
    have only {d : CarrierEntry} (hd : d ∈ s.carriers) (hdid : d.id = id) : d = c :=
      List.inj_on_of_nodup_map hs.books.carriers.2 hd mem (hdid.trans hid.symm)
    have same : s.markClosing id = s.modCarrier id fun c => { c with closing := true } := by
      unfold State.markClosing State.modCarrier
      congr 1
      refine List.map_congr_left fun d hd => ?_
      split
      · next hdid => rw [only hd hdid]; exact if_pos closes
      · rfl
    rw [same]
    refine hs.closeCarrier (fun d hd hdid => ?_) full
    rw [only hd hdid]
    exact ⟨live, held⟩
  · have same : s.markClosing id = s := by
      unfold State.markClosing State.modCarrier
      have : (s.carriers.map fun c => if c.id = id then (if s.closes c = true then { c with closing := true } else c) else c)
          = s.carriers := by
        conv_rhs => rw [← List.map_id s.carriers]
        refine List.map_congr_left fun d hd => ?_
        split
        · next hdid =>
          rw [if_neg fun closes => hc ⟨d, hdid ▸ State.carrierAt_of_mem hs.books.carriers.2 hd, closes⟩]
          rfl
        · rfl
      rw [this]
    rw [same]
    exact hs

theorem State.firstClosing_none (hf : s.firstClosing = none) : ∀ c ∈ s.carriers, c.closing = false := by
  simpa [State.firstClosing] using hf

/-- A carrier record that waited enters and its entry is removed (R143). -/
theorem State.Sound.enterCarrier {n : Nat} (hs : s.Sound k) (hn : k.slots = n + 1) {c : CarrierEntry}
    (hc : s.firstClosing = some c) (room : s.queueHasRoom = true) : (s.enterCarrier c).Sound { k with slots := n } := by
  have mem : c ∈ s.carriers := List.mem_of_find?_eq_some hc
  have closing : c.closing = true := by simpa using List.find?_some hc
  obtain ⟨live, held⟩ := hs.books.closing.1 c mem closing
  have full := hs.books.waiting (by
    have : c ∈ s.carriers.filter fun c => c.closing := List.mem_filter.mpr ⟨mem, closing⟩
    have := List.length_pos_of_mem this
    unfold State.recordsWaiting
    omega)
  rw [hn] at full
  have liveOf : s.liveOf c.id = 0 := by
    have := (hs.books.accounts c mem).2.1
    omega
  have same : s.enterCarrier c = (s.dropCarrier c.id).enterRecord (.carrier c.record) := rfl
  rw [same]
  refine ((hs.dropCarrier liveOf held).enterRecord room _).withSlots fun _ => ?_
  have : (s.dropCarrier c.id).queue = s.queue := rfl
  simp only [State.enterRecord_queue, this, List.length_append, List.length_cons, List.length_nil]
  omega

/-! ### The refill and the terminations it put off -/

theorem State.Sound.refill {ds : List Deferred} {n : Nat} (hs : s.Sound (.refilling ds n))
    (hn : (ds.map Deferred.head).Nodup) :
    (refill n s ds).state.Sound (.refilling (refill n s ds).deferred 0) ∧
      ((refill n s ds).deferred.map Deferred.head).Nodup := by
  induction n generalizing s ds with
  | zero => exact ⟨hs, hn⟩
  | succ n ih =>
    have away := Flight.refilling_ne_homeless ds (n + 1)
    unfold Machine.refill
    split
    · next room =>
      split
      · next h r hf =>
        have held := State.firstHeld_some hf
        have plain : (Flight.refilling ds (n + 1)).mode h = .plain := by
          rw [Flight.refilling_mode]
          split
          · next hm =>
            have shaped := (hs.heads h).shaped
            rw [Flight.refilling_mode, if_pos hm] at shaped
            have := ((hs.heads h).heating shaped.2).2.2.2.2
            rw [held] at this
            cases this
          · rfl
        obtain ⟨entered, full⟩ := hs.enterHeld rfl rfl away held plain room
        have marked : ((s.enterHeld h r).markClosing r.carrier).Sound (.refilling ds n) := entered.markClosing _ full
        obtain ⟨started, nodup⟩ := marked.startDeferring hn 32
        exact ih started nodup
      · next hf =>
        split
        · next c hc => exact ih (hs.enterCarrier rfl hc room) hn
        · next hc =>
          refine ⟨hs.withSlots fun hw => ?_, hn⟩
          have none : (allHeads.filter fun j => (s.ctxAt j).heldRecord.isSome) = [] := by
            simp [State.firstHeld_none hf]
          have closed : (s.carriers.filter fun c => c.closing) = [] :=
            List.filter_eq_nil_iff.mpr fun c hc' => by simp [State.firstClosing_none hc c hc']
          simp [State.recordsWaiting, none, closed] at hw
    · next room =>
      refine ⟨hs.withSlots fun _ => ?_, hn⟩
      rw [State.queueHasRoom_iff] at room
      simp only [Config.recordCapacity]
      omega

/-- The terminations put off keep the laws, and none is left. -/
theorem State.Sound.terminateDeferred {ds : List Deferred} (hs : s.Sound (.refilling ds 0))
    (hn : (ds.map Deferred.head).Nodup) : (terminateDeferred ds s).Sound Flight.none := by
  induction ds generalizing s with
  | nil => rw [← Flight.refilling_nil]; exact hs
  | cons d ds ih =>
    obtain ⟨hd, hn⟩ := List.nodup_cons.mp hn
    have heating : (s.ctxAt d.head).state = .heating := by
      have := (hs.heads d.head).shaped
      rw [Flight.refilling_mode, if_pos (List.mem_map_of_mem List.mem_cons_self)] at this
      exact this.2
    have ended := hs.terminate heating (Flight.refilling_ne_homeless _ 0) d.ending
    rw [Flight.refilling_cons 0 hd, Flight.paid_of rfl] at ended
    exact ih (ended.conclude rfl (Flight.refilling_ne_homeless ds 0)) hn

theorem mem_inHeadOrder {ds : List Deferred} {d : Deferred} : d ∈ inHeadOrder ds ↔ d ∈ ds := by
  simp [inHeadOrder, mem_allHeads]

theorem inHeadOrder_nodup {ds : List Deferred} (hn : (ds.map Deferred.head).Nodup) :
    ((inHeadOrder ds).map Deferred.head).Nodup := by
  unfold inHeadOrder
  rw [List.map_flatMap, List.nodup_flatMap]
  refine ⟨fun h _ => hn.sublist (List.filter_sublist.map _), allHeads_nodup.imp fun {a b} hab => ?_⟩
  have own {h j : Head} (hj : j ∈ (ds.filter fun d => d.head = h).map Deferred.head) : j = h := by
    obtain ⟨d, hd, rfl⟩ := List.mem_map.mp hj
    simpa using (List.mem_filter.mp hd).2
  exact fun j ha hb => hab ((own ha).symm.trans (own hb))

/-- READ_RECORDS keeps the laws (R145). -/
theorem State.Sound.takeRecords (hs : s.Sound Flight.none) (n : Nat) : (s.takeRecords n).Sound Flight.none := by
  have dropped : ({ s with queue := s.queue.drop n } : State).reportRecords.Sound (.refilling [] n) := by
    rw [show Flight.refilling [] n = { Flight.none with slots := n } by simp [Flight.refilling, Flight.none]]
    refine ⟨hs.heads.congr rfl (fun _ => rfl) fun _ => rfl, hs.power.congr rfl (fun _ => rfl) (fun _ => rfl) rfl,
      { hs.cache.congr rfl (fun _ => rfl) rfl rfl (fun _ => rfl) fun _ _ _ _ => rfl with }, ?_,
      hs.flags.change rfl rfl (.inl rfl) (.inr ⟨rfl, rfl⟩) (.inr ⟨rfl, State.claimPresent_congr fun _ => rfl⟩) rfl
        hs.flags.general rfl⟩
    refine ⟨hs.books.carriers, hs.books.named, hs.books.accounts, hs.books.closing, ?_, fun hw => ?_⟩
    · exact (by simp [State.reportRecords] : _ ≤ s.queue.length).trans hs.books.queue
    · have := hs.books.waiting hw
      have drop : ({ s with queue := s.queue.drop n } : State).reportRecords.queue.length = s.queue.length - n :=
        List.length_drop
      rw [drop]
      simp only [Flight.none_slots] at this
      show Config.recordCapacity ≤ s.queue.length - n + n
      omega
  obtain ⟨refilled, nodup⟩ := dropped.refill List.nodup_nil
  unfold State.takeRecords
  refine State.Sound.terminateDeferred ?_ (inHeadOrder_nodup nodup)
  rw [Flight.refilling_congr 0 (es := (Machine.refill n ({ s with queue := s.queue.drop n } : State).reportRecords []).deferred)
    fun j => by simp only [List.mem_map, mem_inHeadOrder]]
  exact refilled

end Sys2Proof.Machine
end

section
/-! FLUSH_CLASS and the fetch timer expiry keep the laws (R33, R35, R42, R81). -/

namespace Sys2Proof.Machine

variable {s t u : State} {k : Flight}

/-! ### FLUSH_CLASS (R42) -/

theorem State.Sound.invalidateAll {es : List EntryIx} (hs : s.Sound k.owing) (hu : ∀ e ∈ es, (s.entryAt e).users = 0) :
    (invalidateAll es s).Sound k.owing := by
  induction es generalizing s with
  | nil => exact hs
  | cons e es ih =>
    refine ih (hs.invalidate (hu e List.mem_cons_self)) fun f hf => ?_
    rw [State.invalidate_entryAt]
    split
    · rfl
    · exact hu f (List.mem_cons_of_mem _ hf)

/-- A retry may be owed where none is. -/
theorem State.Sound.owing (hs : s.Sound k) : s.Sound k.owing :=
  ⟨hs.heads, hs.power, { hs.cache with owes := fun _ => rfl }, { hs.books with }, hs.flags⟩

/-- FLUSH_CLASS keeps the laws (R42). -/
theorem State.Sound.flush (hs : s.Sound k) (ho : k.owes = false) (hk : ∀ j, k.mode j ≠ .homeless) (es : List EntryIx) :
    (s.flush es).state.Sound k := by
  have flushed := hs.owing.invalidateAll (es := s.flushable es) fun e he => by
    have := (List.mem_filter.mp he).2
    rw [Bool.and_eq_true, decide_eq_true_eq] at this
    exact this.2
  have := flushed.runRetry hk
  rw [Flight.owing_paid, Flight.paid_of ho] at this
  exact this.startsDone ho hk

/-! ### The fetch timer expiry (R35, R81) -/

theorem dropBindings_ctxAt (hs : List Head) (s : State) (j : Head) :
    (dropBindings hs s).ctxAt j = if j ∈ hs then { s.ctxAt j with binding := none } else s.ctxAt j := by
  induction hs generalizing s with
  | nil => simp [dropBindings]
  | cons h hs ih =>
    rw [dropBindings, ih, State.modCtx_ctxAt]
    by_cases hj : j = h
    · subst hj; simp
    · simp [hj]

theorem dropBindings_binds (hs : List Head) (s : State) : s.BindsOnly (dropBindings hs s) := by
  induction hs generalizing s with
  | nil => exact .refl s
  | cons h hs ih => exact (s.bindsOnly_modCtx h _).trans (ih _)

theorem dropBindings_cache (hs : List Head) (s : State) : (dropBindings hs s).cache = s.cache := by
  induction hs generalizing s with
  | nil => rfl
  | cons h hs ih => exact ih _

theorem dropBindings_ring (hs : List Head) (s : State) : (dropBindings hs s).ring = s.ring := by
  induction hs generalizing s with
  | nil => rfl
  | cons h hs ih => exact ih _

theorem State.mem_boundHeads {e : EntryIx} {h : Head} :
    h ∈ s.boundHeads e ↔ ∃ b, (s.ctxAt h).binding = some b ∧ b.entry = e := by
  simp [State.boundHeads, mem_allHeads, Option.any_eq_true]

/-- The state in which the fetch of an entry has ended and its heads have lost it. -/
def State.unfetched (s : State) (e : EntryIx) : State := (dropBindings (s.boundHeads e) s).invalidate e

theorem State.unfetched_ctxAt (s : State) (e : EntryIx) (j : Head) :
    (s.unfetched e).ctxAt j = if j ∈ s.boundHeads e then { s.ctxAt j with binding := none } else s.ctxAt j :=
  dropBindings_ctxAt _ s j

theorem State.unfetched_entryAt (s : State) (e f : EntryIx) :
    (s.unfetched e).entryAt f = if f = e then { s.entryAt e with body := .invalid, users := 0 } else s.entryAt f := by
  have same (g : EntryIx) : (dropBindings (s.boundHeads e) s).entryAt g = s.entryAt g := by
    rw [State.entryAt, State.entryAt, dropBindings_cache]
  rw [State.unfetched, State.invalidate_entryAt, same, same]

/-- The flight in which the heads named have lost their entry. -/
def Flight.losing (hs : List Head) : Flight :=
  { mode := fun j => if j ∈ hs then .homeless else .plain, owes := true }

theorem Flight.losing_mode (hs : List Head) (j : Head) :
    (Flight.losing hs).mode j = if j ∈ hs then .homeless else .plain := rfl

/-- The heads of a fetch that has ended are in ARMING. -/
theorem State.Sound.arming_of_fetching (hs : s.Sound Flight.none) {e : EntryIx} {c : ClassId} {n : Nat}
    (he : (s.entryAt e).body = .fetching c n) {h : Head} (hh : h ∈ s.boundHeads e) : (s.ctxAt h).state = .arming := by
  obtain ⟨b, hb, rfl⟩ := State.mem_boundHeads.mp hh
  by_contra ha
  by_cases hheat : (s.ctxAt h).state = .heating
  · obtain ⟨-, -, d, -, -, desc, -⟩ := hs.runs hheat rfl
    simp [State.boundDesc, hb, he, EntryBody.desc?] at desc
  · have := (hs.heads h).unbound ha hheat
    rw [hb] at this
    cases this

theorem State.Sound.unfetched (hs : s.Sound Flight.none) {e : EntryIx} {c : ClassId} {n : Nat}
    (he : (s.entryAt e).body = .fetching c n) : (s.unfetched e).Sound (.losing (s.boundHeads e)) := by
  have view {α : Type} (v : HeadCtx → α) (hv : ∀ c : HeadCtx, v { c with binding := none } = v c) (j : Head) :
      v ((s.unfetched e).ctxAt j) = v (s.ctxAt j) := by
    rw [State.unfetched_ctxAt]
    split
    · exact hv _
    · rfl
  have binds : s.BindsOnly (s.unfetched e) := (dropBindings_binds _ s).trans ⟨rfl, rfl, rfl, rfl, rfl, rfl, rfl, rfl⟩
  have ring : (s.unfetched e).ring = s.ring := dropBindings_ring _ s
  have intake (j : Head) : (s.unfetched e).intakeAt j = s.intakeAt j := by
    rw [State.intakeAt, State.intakeAt, binds.intake]
  have row (j : Head) : (s.unfetched e).rowAt j = s.rowAt j := by rw [State.rowAt, State.rowAt, binds.share]
  have away {j : Head} (hj : j ∉ s.boundHeads e) : (s.unfetched e).ctxAt j = s.ctxAt j := by
    rw [State.unfetched_ctxAt, if_neg hj]
  have unbound {j : Head} (hj : j ∈ s.boundHeads e) : ((s.unfetched e).ctxAt j).binding = none := by
    rw [State.unfetched_ctxAt, if_pos hj]
  have elsewhere {j : Head} {b : Binding} (hb : b ∈ ((s.unfetched e).ctxAt j).binding) :
      (s.ctxAt j).binding = some b ∧ b.entry ≠ e ∧ j ∉ s.boundHeads e := by
    by_cases hj : j ∈ s.boundHeads e
    · rw [unbound hj] at hb; cases hb
    · rw [away hj] at hb
      exact ⟨hb, fun hbe => hj (State.mem_boundHeads.mpr ⟨b, hb, hbe⟩), hj⟩
  have keep {f : EntryIx} (hf : f ≠ e) : (s.unfetched e).entryAt f = s.entryAt f := by
    rw [State.unfetched_entryAt, if_neg hf]
  have desc {j : Head} (hj : j ∉ s.boundHeads e) : (s.unfetched e).boundDesc j = s.boundDesc j :=
    State.boundDesc_congr (by rw [away hj]) fun b hb => by
      rw [keep fun hbe => hj (State.mem_boundHeads.mpr ⟨b, hb, hbe⟩)]
  have lost {j : Head} (hm : (Flight.losing (s.boundHeads e)).mode j ≠ .homeless) : j ∉ s.boundHeads e := fun hj => by
    rw [Flight.losing_mode, if_pos hj] at hm
    exact hm rfl
  have wait : (s.unfetched e).cache.wait = s.cache.wait := by
    show (dropBindings (s.boundHeads e) s).cache.wait = _
    rw [dropBindings_cache]
  have cs := hs.cache
  refine ⟨fun j => ?_, hs.power.congr binds.base row (view HeadCtx.loop fun _ => rfl) (by rw [ring]),
    ⟨?_, fun c f g hf hg => ?_, fun f => ?_, fun j b hb => ?_, ⟨?_, fun w hw => ?_⟩, fun f => ?_, fun _ => .inr rfl,
      fun _ => rfl, fun j hj hm => ?_, fun j hj hm c hc => ?_, fun j hj hm => ?_⟩,
    { hs.books.congr binds.carriers binds.queue (view HeadCtx.work fun _ => rfl) with },
    hs.flags.congr binds.notices (by rw [State.recordsPresent, binds.queue]; rfl)
      (State.faultPresent_congr fun j => by rw [view HeadCtx.state fun _ => rfl])
      (State.claimPresent_congr fun j => by rw [row]) (by rw [ring]) (by rw [ring]) (by rw [ring]) (by rw [ring])⟩
  · have ok := hs.heads j
    rw [State.config_of_base binds.base, intake, State.unfetched_ctxAt, Flight.losing_mode]
    split
    · next hj =>
      have arming := hs.arming_of_fetching he hj
      exact ⟨⟨arming, ok.arming arming⟩, ok.rested, ok.unwatched, ok.enabled⟩
    · exact ok
  · have position (f : EntryIx) : ((s.unfetched e).entryAt f).recency = (s.entryAt f).recency := by
      rw [State.unfetched_entryAt]
      split
      · next hf => rw [hf]
      · rfl
    simpa only [State.RecencyPermutation, position] using cs.recency
  · rw [State.unfetched_entryAt] at hf hg
    split at hf
    · cases hf
    · split at hg
      · cases hg
      · exact cs.oneMatch c f g hf hg
  · by_cases hf : f = e
    · subst hf
      have : (s.unfetched f).boundHeads f = [] := by
        refine List.filter_eq_nil_iff.mpr fun j _ hj => ?_
        obtain ⟨b, hb, hbe⟩ := (Option.any_eq_true ..).mp hj
        exact (elsewhere hb).2.1 (by simpa using hbe)
      rw [State.unfetched_entryAt, if_pos rfl, this]
      rfl
    · rw [keep hf, cs.users f]
      refine congrArg List.length (List.filter_congr fun j _ => ?_)
      rw [State.unfetched_ctxAt]
      split
      · next hj =>
        obtain ⟨b, hb, hbe⟩ := State.mem_boundHeads.mp hj
        rw [hb]
        have : ¬ b.entry = f := fun h => hf (h.symm.trans hbe)
        simp [this]
      · rfl
  · obtain ⟨hb, hbe, -⟩ := elsewhere hb
    rw [keep hbe, State.requestedId_congr (s := s) (view HeadCtx.current (fun _ => rfl) j)]
    exact cs.bindings j b hb
  · rw [wait]; exact cs.waiters.1
  · have hw' : w ∈ s.cache.wait := wait ▸ hw
    rw [away]
    · exact cs.waiters.2 w hw'
    · intro hj
      obtain ⟨b, hb, -⟩ := State.mem_boundHeads.mp hj
      have := (cs.waiters.2 w hw').2.1
      rw [hb] at this
      cases this
  · rw [State.unfetched_entryAt]
    split
    · trivial
    · exact cs.descriptors f
  · have hj' := lost (by rw [hm]; decide)
    rw [away hj'] at hj ⊢
    refine (cs.placed j hj rfl).imp_right fun ⟨w, hw, e'⟩ => ⟨w, wait ▸ hw, e'⟩
  · have hj' := lost hm
    rw [away hj'] at hj hc ⊢
    rw [desc hj', State.requirementsFor_congr (s := s) (by rw [State.carrierAt_congr binds.carriers])
      (State.interlock_of_base binds.base) (by rw [away hj'])]
    exact cs.requirements j hj (by simp) c hc
  · have hj' := lost (by rw [hm]; decide)
    rw [State.runningStep_congr (s := s) (by rw [away hj']) (desc hj')]
    rw [away hj'] at hj
    exact cs.running j hj rfl

/-- Each head of an ended fetch is faulted in turn (R81). -/
theorem State.Sound.faultUnavailable {hs : List Head} (hl : s.Sound (.losing hs)) (hn : hs.Nodup) :
    (faultUnavailable hs s).Sound (.losing []) := by
  induction hs generalizing s with
  | nil => exact hl
  | cons h hs ih =>
    obtain ⟨hnot, hn⟩ := List.nodup_cons.mp hn
    have arming : (s.ctxAt h).state = .arming := by
      have := (hl.heads h).shaped
      rw [Flight.losing_mode, if_pos List.mem_cons_self] at this
      exact this.1
    have faulted := hl.classUnavailable arming
    refine ih ?_ hn
    have flight : ((Flight.losing (h :: hs)).put h .transit).owing.put h .plain = .losing hs := by
      rw [Flight.owing_put, Flight.put_put]
      simp only [Flight.losing, Flight.put, Flight.owing, Flight.mk.injEq, and_true]
      funext j
      rw [Function.update_apply]
      by_cases hj : j = h
      · subst hj; rw [if_pos rfl, if_neg hnot]
      · simp [hj]
    rwa [flight] at faulted

/-- The end of a fetch without a load keeps the laws (R35, R81). -/
theorem State.Sound.expireFetch (hs : s.Sound Flight.none) {e : EntryIx} {c : ClassId} {n : Nat}
    (he : (s.entryAt e).body = .fetching c n) : (s.expireFetch e).Sound Flight.none := by
  have faulted := (hs.unfetched he).faultUnavailable (allHeads_nodup.filter _)
  have none : (Flight.losing []).paid = Flight.none := by simp [Flight.losing, Flight.paid, Flight.none]
  have retried := faulted.closeCarriers.runRetry fun j => by rw [Flight.losing_mode]; simp
  rw [none] at retried
  exact retried.startsDone rfl fun j => by simp

end Sys2Proof.Machine
end

section
/-! CLASSLOAD: the fill and the settlement of the entries it covers, in one closed form (R36 to R39). -/

namespace Sys2Proof.Machine

variable {s t u : State} {k : Flight} {d : ClassDesc} {e : EntryIx}

/-! ### Moving heads to the target (R38, R39) -/

theorem State.requestedId_modCtx {h : Head} {f : HeadCtx → HeadCtx} (hf : (f (s.ctxAt h)).current = (s.ctxAt h).current)
    (j : Head) : (s.modCtx h f).requestedId j = s.requestedId j :=
  State.requestedId_congr (State.modCtx_view HeadCtx.current hf j)

theorem moveHeads_ctxAt (e : EntryIx) (tag : ClassId) (hs : List Head) (s : State) (j : Head) :
    (moveHeads e tag hs s).ctxAt j = if j ∈ hs
      then { s.ctxAt j with binding := some { entry := e, variant := variantOf (s.requestedId j) tag } }
      else s.ctxAt j := by
  induction hs generalizing s with
  | nil => simp [moveHeads]
  | cons h hs ih =>
    have requested : (s.rebindTo e tag h).requestedId j = s.requestedId j := State.requestedId_modCtx (by rfl) j
    rw [moveHeads, ih, requested, State.rebindTo, State.modCtx_ctxAt]
    by_cases hj : j = h
    · subst hj; simp
    · simp [hj]

theorem moveHeads_cache (e : EntryIx) (tag : ClassId) (hs : List Head) (s : State) :
    (moveHeads e tag hs s).cache = s.cache := by
  induction hs generalizing s with
  | nil => rfl
  | cons h hs ih => exact ih _

theorem moveHeads_ring (e : EntryIx) (tag : ClassId) (hs : List Head) (s : State) :
    (moveHeads e tag hs s).ring = s.ring := by
  induction hs generalizing s with
  | nil => rfl
  | cons h hs ih => exact ih _

theorem moveHeads_binds (e : EntryIx) (tag : ClassId) (hs : List Head) (s : State) :
    s.BindsOnly (moveHeads e tag hs s) := by
  induction hs generalizing s with
  | nil => exact .refl s
  | cons h hs ih => exact (s.bindsOnly_modCtx h _).trans (ih _)

theorem moveHeads_entryAt (e : EntryIx) (tag : ClassId) (hs : List Head) (s : State) (f : EntryIx) :
    (moveHeads e tag hs s).entryAt f = s.entryAt f := by
  rw [State.entryAt, State.entryAt, moveHeads_cache]

/-! ### The settlement, entry by entry (R39) -/

/-- Head `h` is bound to the target or to an entry the load covers that has been settled. -/
def State.joinsBy (s : State) (d : ClassDesc) (e : EntryIx) (p : EntryIx → Bool) (h : Head) : Bool :=
  (s.ctxAt h).binding.any fun b => decide (b.entry = e) || (s.covered d e b.entry && p b.entry)

/-- From `s` to `u` a load has been filled into entry `e` and the covered entries that a test names have been settled. -/
structure State.FilledBy (s : State) (d : ClassDesc) (e : EntryIx) (p : EntryIx → Bool) (u : State) : Prop where
  ctx : ∀ j, u.ctxAt j = if s.joinsBy d e p j
    then { s.ctxAt j with
      binding := some { entry := e, variant := variantOf (s.requestedId j) (clearLow d.classId d.span) } }
    else s.ctxAt j
  entries : ∀ f, u.entryAt f =
    if f = e then
      { body := .resident (clearLow d.classId d.span) d, users := (allHeads.filter (s.joinsBy d e p)).length, recency := 0 }
    else if s.covered d e f && p f then { body := .invalid, users := 0, recency := s.touchedAt e f }
    else { s.entryAt f with recency := s.touchedAt e f }
  binds : s.BindsOnly u
  ring : u.ring = s.ring
  wait : u.cache.wait = s.cache.wait

/-- What a load needs of the state it finds (R36, R37): the target is the fetch of its class or has no users, and no
covered RESIDENT entry has users. -/
structure State.LoadFits (s : State) (d : ClassDesc) (e : EntryIx) : Prop where
  clamped : d.Clamped (clearLow d.classId d.span)
  target : (∃ n, (s.entryAt e).body = .fetching d.classId n) ∨ (s.entryAt e).users = 0
  free : ∀ f, s.covered d e f = true → (s.entryAt f).body.isResident = true → (s.entryAt f).users = 0

theorem State.covered_self : s.covered d e e = false := by simp [State.covered]

theorem State.covered_ne {f : EntryIx} (h : s.covered d e f = true) : f ≠ e := by
  rintro rfl
  rw [State.covered_self] at h
  cases h

theorem State.fill_filledBy (cs : s.CacheSound k) : s.FilledBy d e (fun _ => false) (s.fill e d) := by
  have bound (j : Head) : j ∈ s.boundHeads e ↔ s.joinsBy d e (fun _ => false) j = true := by
    simp [State.boundHeads, State.joinsBy, mem_allHeads]
  have touched (f : EntryIx) :
      (((s.modEntry e fun x => { x with body := .resident (clearLow d.classId d.span) d }).touch e).entryAt f) =
        if f = e then { body := .resident (clearLow d.classId d.span) d, users := (s.entryAt e).users, recency := 0 }
        else { s.entryAt f with recency := s.touchedAt e f } := by
    rw [State.touch_entryAt, State.modEntry_entryAt]
    have same : (s.modEntry e fun x => { x with body := .resident (clearLow d.classId d.span) d }).touchedAt e f =
        s.touchedAt e f := by
      unfold State.touchedAt
      rw [State.modEntry_entryAt_self]
      by_cases hf : f = e
      · simp [hf]
      · simp [hf, State.modEntry_entryAt_of_ne _ hf]
    rw [same]
    by_cases hf : f = e
    · subst hf; simp [State.touchedAt]
    · simp [hf]
  have heads : ((s.modEntry e fun x => { x with body := .resident (clearLow d.classId d.span) d }).touch e).boundHeads e =
      s.boundHeads e := rfl
  unfold State.fill
  dsimp only
  rw [heads]
  refine ⟨fun j => ?_, fun f => ?_, ?_, moveHeads_ring .., ?_⟩
  · rw [moveHeads_ctxAt]
    by_cases hj : j ∈ s.boundHeads e
    · rw [if_pos hj, if_pos ((bound j).mp hj)]; rfl
    · rw [if_neg hj, if_neg fun h => hj ((bound j).mpr h)]; rfl
  · rw [moveHeads_entryAt, touched, cs.users e]
    have : (allHeads.filter (s.joinsBy d e fun _ => false)) = s.boundHeads e :=
      List.filter_congr fun j _ => by simp [State.joinsBy]
    rw [this]
    split
    · rfl
    · simp
  · have placed : s.BindsOnly
        ((s.modEntry e fun x => { x with body := .resident (clearLow d.classId d.span) d }).touch e) :=
      ⟨rfl, rfl, rfl, rfl, rfl, rfl, rfl, rfl⟩
    exact placed.trans (moveHeads_binds ..)
  · rw [moveHeads_cache]; rfl

/-- The heads named and those bound to one more entry, counted. -/
theorem length_filter_or {α : Type} (l : List α) (p q : α → Bool) (h : ∀ x ∈ l, ¬ (p x = true ∧ q x = true)) :
    (l.filter fun x => p x || q x).length = (l.filter p).length + (l.filter q).length := by
  induction l with
  | nil => rfl
  | cons x l ih =>
    have hx := h x List.mem_cons_self
    have := ih fun y hy => h y (List.mem_cons_of_mem _ hy)
    simp only [List.filter_cons]
    cases hp : p x <;> cases hq : q x <;> simp_all <;> omega

/-- One more entry is settled (R39). -/
theorem State.FilledBy.settle (cs : s.CacheSound k) (fits : s.LoadFits d e) {p : EntryIx → Bool} (hu : s.FilledBy d e p u)
    {g : EntryIx} (hg : p g = false) : s.FilledBy d e (fun f => p f || decide (f = g)) (State.settleOverlap e d g u) := by
  by_cases hcov : s.covered d e g = true
  case neg =>
    have joins (j : Head) : s.joinsBy d e (fun f => p f || decide (f = g)) j = s.joinsBy d e p j := by
      unfold State.joinsBy
      congr 1
      funext b
      by_cases hb : b.entry = g
      · have : s.covered d e b.entry = false := by rw [hb]; simpa using hcov
        simp [this]
      · simp [hb]
    have same : State.settleOverlap e d g u = u := by
      unfold State.settleOverlap
      refine if_neg fun h => hcov ?_
      rw [Bool.and_eq_true, decide_eq_true_eq] at h
      obtain ⟨hne, hover⟩ := h
      rw [hu.entries, if_neg hne] at hover
      rw [State.covered, Bool.and_eq_true, bne_iff_ne]
      refine ⟨hne, ?_⟩
      split at hover
      · simp [EntryBody.overlaps, EntryBody.cover] at hover
      · exact hover
    rw [same]
    refine ⟨fun j => by rw [joins]; exact hu.ctx j, fun f => ?_, hu.binds, hu.ring, hu.wait⟩
    rw [hu.entries f, funext joins]
    by_cases hf : f = g
    · subst hf; simp [hcov]
    · simp [hf]
  case pos =>
    have hne := State.covered_ne hcov
    have entry : u.entryAt g = { s.entryAt g with recency := s.touchedAt e g } := by
      rw [hu.entries, if_neg hne, hg]
      simp
    have meets : (decide (g ≠ e) && (u.entryAt g).body.overlaps (clearLow d.classId d.span) d.span) = true := by
      rw [entry, Bool.and_eq_true]
      exact ⟨by simpa using hne, (Bool.and_eq_true _ _ ▸ hcov : _ ∧ _).2⟩
    have atEntry (j : Head) : (u.ctxAt j).binding.any (fun b => decide (b.entry = g)) =
        (s.ctxAt j).binding.any fun b => decide (b.entry = g) := by
      rw [hu.ctx]
      split
      · next hj =>
        obtain ⟨b, hb, hbe⟩ := (Option.any_eq_true ..).mp hj
        have : ¬ b.entry = g := by
          rintro rfl
          rw [hg] at hbe
          simp [hne] at hbe
        rw [hb]
        simp [this, Ne.symm hne]
      · rfl
    have joins (j : Head) : s.joinsBy d e (fun f => p f || decide (f = g)) j =
        (s.joinsBy d e p j || (s.ctxAt j).binding.any fun b => decide (b.entry = g)) := by
      unfold State.joinsBy
      cases (s.ctxAt j).binding with
      | none => rfl
      | some b =>
        by_cases hb : b.entry = g
        · simp [hb, hcov]
        · simp [hb]
    have apart (j : Head) : ¬ (s.joinsBy d e p j = true ∧ ((s.ctxAt j).binding.any fun b => decide (b.entry = g)) = true) := by
      rintro ⟨h1, h2⟩
      obtain ⟨b, hb, hbe⟩ := (Option.any_eq_true ..).mp h2
      unfold State.joinsBy at h1
      rw [hb] at h1
      have : b.entry = g := by simpa using hbe
      simp [this, hne, hg] at h1
    unfold State.settleOverlap
    dsimp only
    rw [if_pos meets]
    have body : (u.entryAt g).body = (s.entryAt g).body := by rw [entry]
    cases hb : (s.entryAt g).body with
    | invalid =>
      have := (Bool.and_eq_true _ _ ▸ hcov : _ ∧ _).2
      simp [hb, EntryBody.overlaps, EntryBody.cover] at this
    | resident tag d' =>
      have users := fits.free g hcov (by simp [hb, EntryBody.isResident, EntryBody.desc?])
      have users' : (u.entryAt g).users = 0 := by rw [entry]; exact users
      rw [body, hb]
      simp only [users', if_true]
      have none (j : Head) : ((s.ctxAt j).binding.any fun b => decide (b.entry = g)) = false := by
        by_contra hj
        obtain ⟨b, hjb, hbe⟩ := (Option.any_eq_true ..).mp ((Bool.not_eq_false _).mp hj)
        exact cs.unbound users j b hjb (by simpa using hbe)
      have joins' (j : Head) : s.joinsBy d e (fun f => p f || decide (f = g)) j = s.joinsBy d e p j := by
        rw [joins, none, Bool.or_false]
      refine ⟨fun j => by rw [joins']; exact hu.ctx j, fun f => ?_, hu.binds.trans ⟨rfl, rfl, rfl, rfl, rfl, rfl, rfl, rfl⟩,
        hu.ring, hu.wait⟩
      rw [State.invalidate_entryAt, funext joins']
      by_cases hf : f = g
      · subst hf; simp [hne, hcov, entry]
      · rw [if_neg hf, hu.entries f]; simp [hf]
    | fetching tag n =>
      rw [body, hb]
      simp only
      have moved : u.boundHeads g = s.boundHeads g := List.filter_congr fun j _ => atEntry j
      rw [moved]
      have member (j : Head) : j ∈ s.boundHeads g ↔ ((s.ctxAt j).binding.any fun b => decide (b.entry = g)) = true := by
        simp [State.boundHeads, mem_allHeads]
      refine ⟨fun j => ?_, fun f => ?_, ?_, (moveHeads_ring ..).trans hu.ring, ?_⟩
      · have : ((((moveHeads e (clearLow d.classId d.span) (s.boundHeads g) u).modEntry e fun x =>
            { x with users := x.users + (s.boundHeads g).length }).invalidate g).ctxAt j) =
            (moveHeads e (clearLow d.classId d.span) (s.boundHeads g) u).ctxAt j := rfl
        rw [this, moveHeads_ctxAt, joins]
        by_cases hj : j ∈ s.boundHeads g
        · have hj' := (member j).mp hj
          have notBefore : s.joinsBy d e p j = false := by
            by_contra h
            exact apart j ⟨(Bool.not_eq_false _).mp h, hj'⟩
          have same : u.ctxAt j = s.ctxAt j := by rw [hu.ctx, notBefore]; rfl
          rw [if_pos hj, hj', Bool.or_true, if_pos rfl, same, State.requestedId_congr (s := s) (by rw [same])]
        · rw [if_neg hj, hu.ctx, Bool.eq_false_iff.mpr fun h => hj ((member j).mpr h), Bool.or_false]
      · rw [State.invalidate_entryAt]
        by_cases hf : f = g
        · subst hf
          rw [if_pos rfl, State.modEntry_entryAt_of_ne _ hne, moveHeads_entryAt, entry]
          simp [hne, hcov]
        · rw [if_neg hf]
          by_cases hfe : f = e
          · subst hfe
            rw [State.modEntry_entryAt_self, moveHeads_entryAt, hu.entries, if_pos rfl, if_pos rfl]
            have count := length_filter_or allHeads (s.joinsBy d f p)
              (fun j => (s.ctxAt j).binding.any fun b => decide (b.entry = g)) fun j _ => apart j
            rw [show (s.joinsBy d f fun i => p i || decide (i = g)) = fun j => s.joinsBy d f p j ||
              (s.ctxAt j).binding.any fun b => decide (b.entry = g) from funext joins, count]
            rfl
          · rw [State.modEntry_entryAt_of_ne _ hfe, moveHeads_entryAt, hu.entries]
            simp [hfe, hf]
      · have merged (v : State) : v.BindsOnly ((v.modEntry e fun x =>
            { x with users := x.users + (s.boundHeads g).length }).invalidate g) :=
          ⟨rfl, rfl, rfl, rfl, rfl, rfl, rfl, rfl⟩
        exact (hu.binds.trans (moveHeads_binds ..)).trans (merged _)
      · have : ((((moveHeads e (clearLow d.classId d.span) (s.boundHeads g) u).modEntry e fun x =>
            { x with users := x.users + (s.boundHeads g).length }).invalidate g).cache.wait) =
            (moveHeads e (clearLow d.classId d.span) (s.boundHeads g) u).cache.wait := rfl
        rw [this, moveHeads_cache, hu.wait]

theorem State.FilledBy.settleAll (cs : s.CacheSound k) (fits : s.LoadFits d e) {es : List EntryIx} (hn : es.Nodup)
    {p : EntryIx → Bool} (hu : s.FilledBy d e p u) (hp : ∀ g ∈ es, p g = false) :
    s.FilledBy d e (fun f => p f || decide (f ∈ es)) (settleOverlaps e d es u) := by
  induction es generalizing u p with
  | nil =>
    have same : (fun f => p f || decide (f ∈ ([] : List EntryIx))) = p := by funext f; simp
    rw [same]
    exact hu
  | cons g es ih =>
    obtain ⟨hg, hn⟩ := List.nodup_cons.mp hn
    have := ih hn (hu.settle cs fits (hp g List.mem_cons_self)) fun f hf => by
      have : f ≠ g := by rintro rfl; exact hg hf
      simp [hp f (List.mem_cons_of_mem _ hf), this]
    have same : (fun f => p f || decide (f = g) || decide (f ∈ es)) = fun f => p f || decide (f ∈ g :: es) := by
      funext f
      simp [Bool.or_assoc]
    rwa [same] at this

/-! ### The requirements of the heads bound (R38, R51) -/

theorem meetBound_ctxAt (hs : List Head) (hn : hs.Nodup) (s : State) (j : Head) :
    (meetBound hs s).ctxAt j = if j ∈ hs
      then { s.ctxAt j with reqs := (s.ctxAt j).reqs.map fun r => { r with bound := true } } else s.ctxAt j := by
  induction hs generalizing s with
  | nil => simp [meetBound]
  | cons h hs ih =>
    obtain ⟨hh, hn⟩ := List.nodup_cons.mp hn
    rw [meetBound, ih hn, State.setBound, State.modCtx_ctxAt]
    by_cases hj : j = h
    · subst hj; simp [hh]
    · simp [hj]

theorem meetBound_cache (hs : List Head) (s : State) : (meetBound hs s).cache = s.cache := by
  induction hs generalizing s with
  | nil => rfl
  | cons h hs ih => exact ih _

theorem meetBound_ring (hs : List Head) (s : State) : (meetBound hs s).ring = s.ring := by
  induction hs generalizing s with
  | nil => rfl
  | cons h hs ih => exact ih _

theorem meetBound_binds (hs : List Head) (s : State) : s.BindsOnly (meetBound hs s) := by
  induction hs generalizing s with
  | nil => exact .refl s
  | cons h hs ih => exact (s.bindsOnly_modCtx h _).trans (ih _)

section
variable (s d e)

theorem State.loaded_ctxAt (j : Head) : (s.loaded d e).ctxAt j = if s.joins d e j
    then { s.ctxAt j with
      binding := some { entry := e, variant := variantOf (s.requestedId j) (clearLow d.classId d.span) }
      reqs := (s.ctxAt j).reqs.map fun r => { r with bound := true } }
    else s.ctxAt j := by
  simp [State.loaded, State.ctxAt]

theorem State.loaded_entryAt (f : EntryIx) : (s.loaded d e).entryAt f =
    if f = e then
      { body := .resident (clearLow d.classId d.span) d, users := (allHeads.filter (s.joins d e)).length, recency := 0 }
    else if s.covered d e f then { body := .invalid, users := 0, recency := s.touchedAt e f }
    else { s.entryAt f with recency := s.touchedAt e f } := by
  have : (s.loaded d e).entryAt f =
      if f = e then
        { body := .resident (clearLow d.classId d.span) d, users := (allHeads.filter (s.joins d e)).length, recency := 0 }
      else if s.covered d e f then { body := .invalid, users := 0, recency :=
        if (s.entryAt f).recency < (s.entryAt e).recency then (s.entryAt f).recency + 1 else (s.entryAt f).recency }
      else { s.entryAt f with recency :=
        if (s.entryAt f).recency < (s.entryAt e).recency then (s.entryAt f).recency + 1 else (s.entryAt f).recency } := by
    simp [State.loaded, State.entryAt]
  rw [this]
  by_cases hf : f = e
  · simp [hf]
  · simp only [if_neg hf, State.touchedAt]

end

/-- The load in one: what it leaves is the state of the statement, with the retry it starts (R38, R39, R33). -/
theorem State.applyLoad_eq (cs : s.CacheSound k) (fits : s.LoadFits d e) :
    s.applyLoad e d = (s.loaded d e).oweRetry.runRetry := by
  have filled := (State.fill_filledBy (d := d) (e := e) cs).settleAll cs fits (es := allEntries) (by decide)
    fun _ _ => rfl
  have all (j : Head) : s.joinsBy d e (fun f => false || decide (f ∈ allEntries)) j = s.joins d e j := by
    simp [State.joinsBy, State.joins, mem_allEntries]
  generalize hv : settleOverlaps e d allEntries (s.fill e d) = v at filled
  have bound (j : Head) : j ∈ v.boundHeads e ↔ s.joins d e j = true := by
    rw [State.mem_boundHeads, filled.ctx, all]
    cases hj : s.joins d e j
    · simp only [Bool.false_eq_true, if_false, iff_false]
      rintro ⟨b, hb, rfl⟩
      simp [State.joins, hb] at hj
    · simp
  unfold State.applyLoad
  dsimp only
  rw [hv]
  congr 1
  have binds := filled.binds.trans (meetBound_binds (v.boundHeads e) v)
  refine State.ext_at binds.base ?_ ?_ rfl (fun f => ?_) binds.carriers (fun j => ?_) (fun j => ?_) (fun j => ?_) binds.queue
    ((meetBound_ring ..).trans filled.ring) binds.notices
  · show (meetBound (v.boundHeads e) v).cache.wait = s.cache.wait
    rw [meetBound_cache, filled.wait]
  · exact binds.fetchLimit
  · show (meetBound (v.boundHeads e) v).entryAt f = (s.loaded d e).entryAt f
    rw [State.entryAt, meetBound_cache, State.loaded_entryAt]
    have := filled.entries f
    rw [State.entryAt] at this
    rw [this, funext all]
    simp [mem_allEntries]
  · show (meetBound (v.boundHeads e) v).ctxAt j = (s.loaded d e).ctxAt j
    rw [meetBound_ctxAt _ (show (v.boundHeads e).Nodup from allHeads_nodup.filter _), State.loaded_ctxAt, filled.ctx, all]
    by_cases hj : s.joins d e j = true
    · rw [if_pos ((bound j).mpr hj)]; simp [hj]
    · rw [if_neg fun h => hj ((bound j).mp h)]; simp [hj]
  · show (meetBound (v.boundHeads e) v).intakeAt j = s.intakeAt j
    rw [State.intakeAt, binds.intake]; rfl
  · show (meetBound (v.boundHeads e) v).rowAt j = s.rowAt j
    rw [State.rowAt, binds.share]; rfl

end Sys2Proof.Machine
end

section
/-! CLASSLOAD keeps the laws (R24, R36 to R39). -/

namespace Sys2Proof.Machine

variable {s t u : State} {k : Flight} {d : ClassDesc} {e : EntryIx}

theorem State.joins_iff {h : Head} :
    s.joins d e h = true ↔ ∃ b, (s.ctxAt h).binding = some b ∧ (b.entry = e ∨ s.covered d e b.entry = true) := by
  unfold State.joins
  rw [Option.any_eq_true]
  simp only [Bool.or_eq_true, decide_eq_true_eq]

/-- A head that a load takes along is bound to the fetch of an entry, and its class lies in the range of the load. -/
theorem State.Sound.joining (hs : s.Sound Flight.none) (fits : s.LoadFits d e) {h : Head} (hj : s.joins d e h = true) :
    s.boundDesc h = none ∧ clearLow (s.requestedId h) d.span = clearLow d.classId d.span := by
  obtain ⟨b, hb, hbe⟩ := State.joins_iff.mp hj
  have bound := hs.cache.bindings h b hb
  have busy : (s.entryAt b.entry).users ≠ 0 := fun hu => hs.cache.unbound hu h b hb rfl
  have fetching {tag : ClassId} {n : Nat} (hf : (s.entryAt b.entry).body = .fetching tag n) :
      s.boundDesc h = none ∧ tag = s.requestedId h := by
    rw [hf] at bound
    exact ⟨by simp [State.boundDesc, hb, hf, EntryBody.desc?], bound.1⟩
  rcases hbe with hbe | hcov
  · rcases fits.target with ⟨n, hn⟩ | hu
    · rw [← hbe] at hn
      obtain ⟨desc, req⟩ := fetching hn
      exact ⟨desc, by rw [← req]⟩
    · exact absurd (hbe ▸ hu) busy
  · cases hbody : (s.entryAt b.entry).body with
    | invalid => rw [hbody] at bound; exact bound.elim
    | resident tag d' =>
      exact absurd (fits.free b.entry hcov (by simp [hbody, EntryBody.isResident, EntryBody.desc?])) busy
    | fetching tag n =>
      obtain ⟨desc, req⟩ := fetching hbody
      refine ⟨desc, ?_⟩
      have shares := (Bool.and_eq_true _ _ ▸ hcov : _ ∧ _).2
      rw [hbody, req] at shares
      simp only [EntryBody.overlaps, EntryBody.cover, Option.any_some, decide_eq_true_eq] at shares
      rw [show max d.span (0 : Fin 4) = d.span from max_eq_left (Fin.zero_le _), clearLow_self] at shares
      exact shares.symm

/-- The descriptor a head is bound to once a load has been taken. -/
theorem State.loaded_boundDesc (j : Head) :
    (s.loaded d e).boundDesc j = if s.joins d e j then some d else s.boundDesc j := by
  unfold State.boundDesc
  rw [State.loaded_ctxAt]
  cases hj : s.joins d e j
  · simp only [Bool.false_eq_true, if_false]
    cases hb : (s.ctxAt j).binding with
    | none => rfl
    | some b =>
      have : ¬ (b.entry = e ∨ s.covered d e b.entry = true) := fun h => by
        have := State.joins_iff (d := d).mpr ⟨b, hb, h⟩
        rw [hj] at this
        cases this
      rw [not_or] at this
      simp only [Option.bind_some]
      rw [State.loaded_entryAt, if_neg this.1, if_neg this.2]
  · simp [State.loaded_entryAt, EntryBody.desc?]

/-- A load that fits keeps the laws, with the retry it starts owed (R38, R39). -/
theorem State.Sound.loaded (hs : s.Sound Flight.none) (fits : s.LoadFits d e) :
    (s.loaded d e).oweRetry.Sound Flight.none.owing := by
  have cs := hs.cache
  have ctx (j : Head) : (s.loaded d e).oweRetry.ctxAt j = (s.loaded d e).ctxAt j := rfl
  have entry (f : EntryIx) : (s.loaded d e).oweRetry.entryAt f = (s.loaded d e).entryAt f := rfl
  have view {α : Type} (v : HeadCtx → α) (hv : ∀ c b r, v { c with binding := b, reqs := r } = v c) (j : Head) :
      v ((s.loaded d e).ctxAt j) = v (s.ctxAt j) := by
    rw [State.loaded_ctxAt]
    split
    · exact hv _ _ _
    · rfl
  have keep {j : Head} (hj : s.joins d e j = false) : (s.loaded d e).ctxAt j = s.ctxAt j := by
    rw [State.loaded_ctxAt, hj]; rfl
  have arming {j : Head} (hj : s.joins d e j = true) : (s.ctxAt j).state = .arming := by
    obtain ⟨b, hb, -⟩ := State.joins_iff.mp hj
    by_contra ha
    by_cases hheat : (s.ctxAt j).state = .heating
    · obtain ⟨-, -, d', -, -, desc, -⟩ := hs.runs hheat rfl
      rw [(hs.joining fits hj).1] at desc
      cases desc
    · have := (hs.heads j).unbound ha hheat
      rw [hb] at this
      cases this
  have binding (j : Head) (f : EntryIx) : ((s.loaded d e).ctxAt j).binding.any (fun b : Binding => decide (b.entry = f)) =
      if s.joins d e j then decide (f = e) else (s.ctxAt j).binding.any fun b => decide (b.entry = f) := by
    rw [State.loaded_ctxAt]
    cases s.joins d e j
    · rfl
    · simp [eq_comm]
  refine ⟨fun j => ?_, hs.power.congr rfl (fun _ => rfl) (view HeadCtx.loop fun _ _ _ => rfl) rfl,
    ⟨?_, fun c f g hf hg => ?_, fun f => ?_, fun j b hb => ?_, ⟨cs.waiters.1, fun w hw => ?_⟩, fun f => ?_,
      fun _ => .inr rfl, fun _ => rfl, fun j hj hm => ?_, fun j hj hm c hc => ?_, fun j hj hm => ?_⟩,
    { hs.books.congr (t := (s.loaded d e).oweRetry) rfl rfl (view HeadCtx.work fun _ _ _ => rfl) with },
    hs.flags.congr rfl rfl (State.faultPresent_congr fun j => by rw [ctx, view HeadCtx.state fun _ _ _ => rfl])
      (State.claimPresent_congr fun _ => rfl) rfl rfl rfl rfl⟩
  · have ok := hs.heads j
    rw [ctx]
    cases hj : s.joins d e j
    · rw [keep hj]; exact ok
    · have shape : (s.ctxAt j).Shaped := ok.shaped
      rw [State.loaded_ctxAt, hj]
      refine ⟨?_, ok.rested, ok.unwatched, ok.enabled⟩
      show HeadCtx.Shaped _
      simp only [HeadCtx.Shaped, arming hj] at shape
      simpa only [HeadCtx.Shaped, arming hj, if_true, Option.isSome_map] using shape
  · have position (f : EntryIx) : ((s.loaded d e).oweRetry.entryAt f).recency = s.touchedAt e f := by
      rw [entry, State.loaded_entryAt]
      split
      · next hf => rw [hf]; simp [State.touchedAt]
      · split <;> rfl
    simpa only [State.RecencyPermutation, position] using State.recency_touchedAt cs.recency e
  · have body {f : EntryIx} (hf : ((s.loaded d e).oweRetry.entryAt f).body.matchesId c = true) :
        (f = e ∧ clearLow c d.span = clearLow d.classId d.span) ∨
          (f ≠ e ∧ s.covered d e f = false ∧ (s.entryAt f).body.matchesId c = true) := by
      rw [entry, State.loaded_entryAt] at hf
      split at hf
      · next hfe => exact .inl ⟨hfe, by simpa [EntryBody.matchesId, EntryBody.cover] using hf⟩
      · next hfe =>
        split at hf
        · cases hf
        · next hcov => exact .inr ⟨hfe, by simpa using hcov, hf⟩
    have outside {f : EntryIx} (hc : clearLow c d.span = clearLow d.classId d.span) (hfe : f ≠ e)
        (hcov : s.covered d e f = false) (hf : (s.entryAt f).body.matchesId c = true) : False := by
      have := EntryBody.overlaps_of_matches hf hc
      rw [State.covered, this] at hcov
      simp [hfe] at hcov
    rcases body hf with ⟨rfl, hc⟩ | ⟨hfe, hcov, hfm⟩
    · rcases body hg with ⟨rfl, -⟩ | ⟨hge, hcov, hgm⟩
      · rfl
      · exact (outside hc hge hcov hgm).elim
    · rcases body hg with ⟨rfl, hc⟩ | ⟨-, -, hgm⟩
      · exact (outside hc hfe hcov hfm).elim
      · exact cs.oneMatch c f g hfm hgm
  · have bound : (s.loaded d e).oweRetry.boundHeads f =
        allHeads.filter fun j => if s.joins d e j then decide (f = e)
          else (s.ctxAt j).binding.any fun b => decide (b.entry = f) := by
      unfold State.boundHeads
      exact List.filter_congr fun j _ => by rw [ctx, binding]
    rw [bound, entry, State.loaded_entryAt]
    by_cases hf : f = e
    · subst hf
      simp only [if_true]
      refine congrArg List.length (List.filter_congr fun j _ => ?_)
      cases hj : s.joins d f j
      · simp only [Bool.false_eq_true, if_false]
        by_contra hb
        obtain ⟨b, hb, hbf⟩ := (Option.any_eq_true ..).mp ((Bool.not_eq_false _).mp fun h => hb h.symm)
        have := State.joins_iff (d := d).mpr ⟨b, hb, .inl (by simpa using hbf)⟩
        rw [hj] at this
        cases this
      · simp
    · rw [if_neg hf]
      by_cases hcov : s.covered d e f = true
      · rw [if_pos hcov]
        have none : (allHeads.filter fun j => if s.joins d e j then decide (f = e)
            else (s.ctxAt j).binding.any fun b => decide (b.entry = f)) = [] := by
          refine List.filter_eq_nil_iff.mpr fun j _ => ?_
          cases hj : s.joins d e j
          · simp only [Bool.false_eq_true, if_false]
            intro hb
            obtain ⟨b, hb, hbf⟩ := (Option.any_eq_true ..).mp hb
            have hbf : b.entry = f := by simpa using hbf
            have := State.joins_iff (d := d).mpr ⟨b, hb, .inr (hbf ▸ hcov)⟩
            rw [hj] at this
            cases this
          · simp [hf]
        rw [none]
        rfl
      · rw [if_neg hcov]
        show (s.entryAt f).users = _
        rw [cs.users f]
        refine congrArg List.length (List.filter_congr fun j _ => ?_)
        cases hj : s.joins d e j
        · rfl
        · obtain ⟨b, hb, hbe⟩ := State.joins_iff.mp hj
          have : ¬ b.entry = f := by
            rintro rfl
            exact hbe.elim hf hcov
          simp [hb, this, hf]
  · rw [State.requestedId_congr (s := s) (t := (s.loaded d e).oweRetry) (view HeadCtx.current (fun _ _ _ => rfl) j)]
    rw [ctx, State.loaded_ctxAt] at hb
    rw [entry]
    cases hj : s.joins d e j
    · rw [hj] at hb
      have hb : (s.ctxAt j).binding = some b := hb
      have apart : ¬ (b.entry = e ∨ s.covered d e b.entry = true) := fun h => by
        have := State.joins_iff (d := d).mpr ⟨b, hb, h⟩
        rw [hj] at this
        cases this
      rw [not_or] at apart
      rw [State.loaded_entryAt, if_neg apart.1, if_neg apart.2]
      exact cs.bindings j b hb
    · rw [hj] at hb
      cases hb
      rw [State.loaded_entryAt, if_pos rfl]
      exact ⟨(hs.joining fits hj).2, rfl⟩
  · obtain ⟨h1, h2, h3⟩ := cs.waiters.2 w hw
    have alone : s.joins d e w.head = false := by
      by_contra hj
      obtain ⟨b, hb, -⟩ := State.joins_iff.mp ((Bool.not_eq_false _).mp hj)
      rw [h2] at hb
      cases hb
    rw [ctx, keep alone]
    exact ⟨h1, h2, h3⟩
  · rw [entry, State.loaded_entryAt]
    split
    · exact fits.clamped
    · split
      · trivial
      · exact cs.descriptors f
  · rw [ctx] at hj ⊢
    rw [view HeadCtx.state fun _ _ _ => rfl] at hj
    rw [State.loaded_ctxAt]
    cases hjoin : s.joins d e j
    · exact cs.placed j hj rfl
    · exact .inl rfl
  · rw [ctx] at hj hc ⊢
    rw [view HeadCtx.state fun _ _ _ => rfl] at hj
    rw [view HeadCtx.current fun _ _ _ => rfl] at hc
    have old := cs.requirements j hj (by simp) c hc
    have desc : (s.loaded d e).oweRetry.boundDesc j = (s.loaded d e).boundDesc j := rfl
    have req (b : Bool) : (s.loaded d e).oweRetry.requirementsFor j c.asg b = s.requirementsFor j c.asg b :=
      State.requirementsFor_congr rfl rfl (by rw [ctx, view HeadCtx.settle fun _ _ _ => rfl])
    rw [req, desc, State.loaded_boundDesc, State.loaded_ctxAt]
    cases hjoin : s.joins d e j
    · exact old
    · simp only [if_true, old, Option.map_some]
      rfl
  · rw [ctx, view HeadCtx.state fun _ _ _ => rfl] at hj
    have alone : s.joins d e j = false := by
      by_contra hjoin
      have := arming ((Bool.not_eq_false _).mp hjoin)
      rw [hj] at this
      cases this
    rw [State.runningStep_congr (s := s) (by rw [ctx, keep alone]) (by
      show (s.loaded d e).boundDesc j = _
      rw [State.loaded_boundDesc, alone]; rfl)]
    exact cs.running j hj rfl

theorem State.Sound.applyLoad (hs : s.Sound Flight.none) (fits : s.LoadFits d e) : (s.applyLoad e d).Sound Flight.none := by
  rw [State.applyLoad_eq hs.cache fits]
  exact (hs.loaded fits).runRetry fun j => by simp

/-! ### The checks and the matching of a load (R24, R36, R37) -/

/-- A descriptor that passes the checks of R24 is a clamped one. -/
theorem checkLoad_clamped {p : List Byte} (h : checkLoad p = .ok d) : d.Clamped (clearLow d.classId d.span) := by
  have clamp (x : Int) : -250 ≤ clampTrim x ∧ clampTrim x ≤ 250 := by unfold clampTrim; omega
  have count (i n : Nat) : (trimsAt p i n).length = n := by
    induction n generalizing i with
    | zero => rfl
    | succ n ih => rw [trimsAt, List.length_cons, ih]
  unfold checkLoad at h
  split at h
  · cases h
  · next hlen =>
    simp only [not_or] at hlen
    split at h
    · next hs =>
      split at h
      · cases h
      · split at h
        · next ret _ hpages =>
          cases h
          refine ⟨rfl, hpages.1, hpages.2.2, Nat.min_le_right _ _, Nat.min_le_right _ _, Nat.min_le_right _ _,
            Nat.min_le_right _ _, Nat.min_le_right _ _, ?_, fun x hx => ?_⟩
          · show ((trimsAt p 21 (u8At p 20)).map clampTrim).length = 2 ^ u8At p 2
            rw [List.length_map, count]
            exact not_not.mp hlen.2.1
          · obtain ⟨y, -, rfl⟩ := List.mem_map.mp hx
            exact clamp y
        · cases h
    · cases h

theorem State.loadTarget_target {c : ClassId} (cs : s.CacheSound k) (h : s.loadTarget c = .target e) :
    (∃ n, (s.entryAt e).body = .fetching c n) ∨ (s.entryAt e).users = 0 := by
  unfold State.loadTarget at h
  split at h
  · next f hf =>
    cases h
    have := List.find?_some hf
    split at this
    · next tag n hb => exact .inl ⟨n, by rw [hb, of_decide_eq_true this]⟩
    · cases this
  · split at h
    · split at h
      · next hu => cases h; exact .inr hu
      · cases h
    · split at h
      · next v hv =>
        cases h
        exact .inr (cs.users_of_idle (State.victim_idle hv))
      · cases h

/-- The matching of R36 and R37 finds a target the load fits. -/
theorem State.matchLoad_fits (cs : s.CacheSound k) (hd : d.Clamped (clearLow d.classId d.span))
    (h : s.matchLoad d = .target e) : s.LoadFits d e := by
  unfold State.matchLoad at h
  split at h
  · next f hf =>
    split at h
    · cases h
    · next ho =>
      cases h
      refine ⟨hd, State.loadTarget_target cs hf, fun g hcov hres => ?_⟩
      unfold State.overlapInUse at ho
      have := List.find?_eq_none.mp ho g (mem_allEntries g)
      by_contra hu
      refine this ?_
      have hcov' := (Bool.and_eq_true _ _ ▸ hcov : _ ∧ _)
      simp [State.covered_ne hcov, hres, hcov'.2, Nat.pos_of_ne_zero hu]
  · next r hne =>
    exact (hne e h).elim

/-- CLASSLOAD keeps the laws. -/
theorem State.Sound.classloadWork (hs : s.Sound Flight.none) (p : List Byte) :
    (classloadWork p s).state.Sound Flight.none := by
  unfold Machine.classloadWork
  split
  · exact hs
  · next d hd =>
    split
    · next e he =>
      exact (hs.applyLoad (State.matchLoad_fits hs.cache (checkLoad_clamped hd) he)).startsDone rfl fun j => by simp
    · exact hs
    · exact hs

end Sys2Proof.Machine
end

section
/-! CARRIER keeps the laws (R46 to R50). -/

namespace Sys2Proof.Machine

variable {s t u : State} {k : Flight}

/-! ### The entry of a new carrier (R47) -/

/-- The flight with `n` assignments of a carrier still to be placed. -/
def Flight.placing (id : CarrierId) (n : Nat) : Flight := { unplaced := fun i => if i = id then n else 0 }

@[simp] theorem Flight.placing_mode (id : CarrierId) (n : Nat) (j : Head) : (Flight.placing id n).mode j = .plain := rfl
@[simp] theorem Flight.placing_owes (id : CarrierId) (n : Nat) : (Flight.placing id n).owes = false := rfl
@[simp] theorem Flight.placing_slots (id : CarrierId) (n : Nat) : (Flight.placing id n).slots = 0 := rfl
theorem Flight.placing_unplaced (id : CarrierId) (n : Nat) (i : CarrierId) :
    (Flight.placing id n).unplaced i = if i = id then n else 0 := rfl

theorem Flight.placing_zero (id : CarrierId) : Flight.placing id 0 = Flight.none := by
  simp [Flight.placing, Flight.none]

/-- A carrier the table does not hold is named by no assignment. -/
theorem State.BooksSound.unnamed (hb : s.BooksSound k) {id : CarrierId} (hid : s.carrierAt id = none) (j : Head) :
    ∀ a ∈ (s.ctxAt j).assignments, a.carrier ≠ id := by
  rintro a ha rfl
  have := (hb.named j).2 a ha
  rw [hid] at this
  cases this

theorem State.liveOf_eq_zero {id : CarrierId} (h : ∀ j, ∀ a ∈ (s.ctxAt j).assignments, a.carrier ≠ id) : s.liveOf id = 0 := by
  unfold State.liveOf
  rw [List.length_eq_zero_iff, List.filter_eq_nil_iff]
  intro a ha
  obtain ⟨j, -, hj⟩ := List.mem_flatMap.mp ha
  simpa using h j a hj

/-- The state with the entry of a new carrier at the tail of the table. -/
def State.withNew (s : State) (id : CarrierId) (n : Nat) : State := { s with carriers := s.carriers ++ [newCarrier id n] }

theorem State.withNew_carrierAt (s : State) {id i : CarrierId} (n : Nat) (h : i ≠ id) :
    (s.withNew id n).carrierAt i = s.carrierAt i := by
  have : ¬ id = i := fun e => h e.symm
  simp [State.withNew, State.carrierAt, List.find?_append, newCarrier, this]

theorem State.Sound.withNew (hs : s.Sound Flight.none) {id : CarrierId} (hid : s.carrierAt id = none)
    (room : s.carriers.length < Config.carrierCapacity) {n : Nat} (hn : n ≤ 16) :
    (s.withNew id n).Sound (.placing id n) := by
  have hb := hs.books
  have new : ∀ c ∈ s.carriers, c.id ≠ id := fun c hc he => by
    have := State.carrierAt_isSome_iff.mpr ⟨c, hc, he⟩
    rw [hid] at this
    cases this
  have held (j : Head) (r : JointRecord) (hr : r ∈ (s.ctxAt j).heldRecord) : r.carrier ≠ id := by
    rintro rfl
    have := hb.closing.2 j r hr
    rw [hid] at this
    cases this
  have keeps (i : CarrierId) (hi : i ≠ id) := s.withNew_carrierAt n hi
  have cache : (s.withNew id n).CacheSound Flight.none :=
    hs.cache.congr rfl (fun _ => rfl) rfl rfl (fun _ => rfl) fun j _ c hc => by
      rw [keeps _ (hb.unnamed hid j _ (HeadCtx.current_mem_assignments hc))]
  refine ⟨hs.heads.congr rfl (fun _ => rfl) fun _ => rfl, hs.power.congr rfl (fun _ => rfl) (fun _ => rfl) rfl,
    { cache with }, ⟨⟨?_, ?_⟩, fun j => ⟨(hb.named j).1, fun a ha => ?_⟩, fun c hc => ?_,
      ⟨fun c hc hcl => ?_, fun j r hr => ?_⟩, hb.queue, fun hw => ?_⟩,
    hs.flags.congr rfl rfl rfl (State.claimPresent_congr fun _ => rfl) rfl rfl rfl rfl⟩
  · simpa [State.withNew] using room
  · show ((s.carriers ++ [newCarrier id n]).map CarrierEntry.id).Nodup
    rw [List.map_append, List.nodup_append]
    refine ⟨hb.carriers.2, by simp, fun a ha b hb' => ?_⟩
    obtain ⟨c, hc, rfl⟩ := List.mem_map.mp ha
    obtain rfl : b = id := by simpa [newCarrier] using hb'
    exact new c hc
  · rw [keeps _ (hb.unnamed hid j a ha)]
    exact (hb.named j).2 a ha
  · have live (i : CarrierId) : (s.withNew id n).liveOf i = s.liveOf i := rfl
    rcases List.mem_append.mp hc with hc | hc
    · rw [live, Flight.placing_unplaced, if_neg (new c hc)]
      exact hb.accounts c hc
    · obtain rfl : c = newCarrier id n := by simpa using hc
      rw [live, Flight.placing_unplaced]
      simp [newCarrier, State.liveOf_eq_zero (hb.unnamed hid), hn]
  · have holds (i : CarrierId) : (s.withNew id n).holdsRecordOf i = s.holdsRecordOf i := rfl
    rcases List.mem_append.mp hc with hc | hc
    · exact hb.closing.1 c hc hcl
    · obtain rfl : c = newCarrier id n := by simpa using hc
      cases hcl
  · rw [keeps _ (held j r hr)]
    exact hb.closing.2 j r hr
  · refine hb.waiting ?_
    have : (s.withNew id n).recordsWaiting = s.recordsWaiting := by
      have closed : (newCarrier id n).closing = false := rfl
      simp [State.recordsWaiting, State.withNew, List.filter_append, closed, State.ctxAt]
    rwa [this] at hw

/-! ### The placement of one assignment (R49) -/

/-- The books once a head has taken one more assignment of the carrier being placed. -/
theorem State.BooksSound.takeAssignment {id : CarrierId} {n : Nat} (hb : s.BooksSound (.placing id (n + 1))) {h : Head}
    {f : HeadCtx → HeadCtx} {a : Assignment} (ha : a.carrier = id)
    (taken : (f (s.ctxAt h)).assignments = (s.ctxAt h).assignments ++ [a])
    (new : ∀ b ∈ (s.ctxAt h).assignments, b.carrier ≠ id) (known : (s.carrierAt id).isSome = true)
    (held : (f (s.ctxAt h)).heldRecord = (s.ctxAt h).heldRecord) : (s.modCtx h f).BooksSound (.placing id n) := by
  have records (j : Head) : ((s.modCtx h f).ctxAt j).heldRecord = (s.ctxAt j).heldRecord :=
    State.modCtx_view HeadCtx.heldRecord held j
  have at' (i : CarrierId) : (s.modCtx h f).carrierAt i = s.carrierAt i := by simp [State.carrierAt]
  have live (i : CarrierId) : (s.modCtx h f).liveOf i = s.liveOf i + if id = i then 1 else 0 := by
    have := State.liveOf_change (s := s) (t := s.modCtx h f) h
      (fun j hj => by rw [State.modCtx_ctxAt_of_ne _ hj]) i
    rw [State.modCtx_ctxAt_self, HeadCtx.liveOf, HeadCtx.liveOf, taken, List.filter_append, List.length_append,
      List.filter_singleton, ha] at this
    by_cases hi : id = i <;> simp [hi] at this ⊢ <;> omega
  have holds (i : CarrierId) : (s.modCtx h f).holdsRecordOf i = s.holdsRecordOf i :=
    State.holdsRecordOf_congr records i
  refine ⟨hb.carriers, fun j => ?_, fun c hc => ?_, ⟨fun c hc hcl => ?_, fun j r hr => ?_⟩, hb.queue, fun hw => ?_⟩
  · simp only [at']
    by_cases hj : j = h
    · subst hj
      rw [State.modCtx_ctxAt_self, taken]
      obtain ⟨nodup, named⟩ := hb.named j
      refine ⟨?_, fun b hb' => ?_⟩
      · rw [List.map_append, List.nodup_append]
        refine ⟨nodup, by simp, fun x hx y hy => ?_⟩
        obtain ⟨b, hb', rfl⟩ := List.mem_map.mp hx
        obtain rfl : y = a.carrier := by simpa using hy
        rw [ha]
        exact new b hb'
      · rcases List.mem_append.mp hb' with hb' | hb'
        · exact named b hb'
        · obtain rfl : b = a := by simpa using hb'
          rw [ha]
          exact known
    · rw [State.modCtx_ctxAt_of_ne _ hj]
      exact hb.named j
  · obtain ⟨sum, count, bound⟩ := hb.accounts c hc
    refine ⟨sum, ?_, bound⟩
    rw [live, Flight.placing_unplaced]
    rw [Flight.placing_unplaced] at count
    by_cases hi : c.id = id
    · simp [hi] at count ⊢; omega
    · have hi' : ¬ id = c.id := fun e => hi e.symm
      simp [hi, hi'] at count ⊢; omega
  · rw [holds]; exact hb.closing.1 c hc hcl
  · rw [at']; rw [records] at hr; exact hb.closing.2 j r hr
  · refine hb.waiting ?_
    simpa only [State.recordsWaiting, records, State.modCtx_carriers] using hw

/-- A taken assignment fits its head: the head is enabled, has room, and holds none of the carrier. -/
structure State.Offers (s : State) (id : CarrierId) (h : Head) : Prop where
  enabled : (s.ctxAt h).state ≠ .disabled
  room : (s.ctxAt h).hasRoom = true
  new : ∀ b ∈ (s.ctxAt h).assignments, b.carrier ≠ id

theorem State.Offers.of_seat {id : CarrierId} {h : Head} (ho : s.Offers id h)
    (seat : (t.ctxAt h).seat = (s.ctxAt h).seat) : t.Offers id h := by
  have current : (t.ctxAt h).seat.current = (s.ctxAt h).seat.current := by rw [seat]
  have next : (t.ctxAt h).seat.next = (s.ctxAt h).seat.next := by rw [seat]
  have current : (t.ctxAt h).current = (s.ctxAt h).current := current
  have next : (t.ctxAt h).next = (s.ctxAt h).next := next
  refine ⟨HeadCtx.state_of_seat seat ▸ ho.enabled, ?_, ?_⟩
  · rw [HeadCtx.hasRoom, current, next]; exact ho.room
  · rw [HeadCtx.assignments, current, next]; exact ho.new

/-- A head takes one more assignment of the carrier being placed into one of its slots. -/
theorem State.Sound.takeSlot {id : CarrierId} {n : Nat} (hs : s.Sound (.placing id (n + 1))) {h : Head} {m : HeadMode}
    {a : Assignment} {current : Option Current} {next : Option Assignment} (ha : a.carrier = id)
    (ho : s.Offers id h) (known : (s.carrierAt id).isSome = true)
    (shape : ({ s.ctxAt h with current, next } : HeadCtx).ShapedAs m)
    (kept : (s.ctxAt h).state = .arming ∨ (s.ctxAt h).state = .heating →
      current.map Current.asg = (s.ctxAt h).current.map Current.asg)
    (taken : ({ s.ctxAt h with current, next } : HeadCtx).assignments = (s.ctxAt h).assignments ++ [a]) :
    (s.modCtx h fun c => { c with current, next }).Sound ((Flight.placing id n).put h m) := by
  have ok := hs.heads h
  have hc : s.Recast (.placing id (n + 1)) h m { s.ctxAt h with current, next } :=
    { own := ⟨shape, ok.rested, ok.unwatched, ok.enabled⟩
      rest := fun e => have rest := hs.atRest e; ⟨rest, rest.acc, rest.limited⟩
      acc := (hs.power.integrators h).1
      asg := fun hb => kept <| by
        rcases hb with hb | ⟨w, hw, e⟩
        · by_contra hst
          rw [not_or] at hst
          rw [ok.unbound hst.1 hst.2] at hb
          cases hb
        · exact .inl (by rw [← e]; exact (hs.cache.waiters.2 w hw).1)
      binding := rfl
      waits := fun ⟨w, hw, e⟩ => by rw [← e]; exact (hs.cache.waiters.2 w hw).1
      placed := fun e _ => hs.cache.placed h e rfl
      requirements := fun e _ c hcur => by
        have hcur : current = some c := hcur
        have same := kept (.inl e)
        rw [hcur] at same
        obtain ⟨d, hd, hda⟩ := Option.map_eq_some_iff.mp same.symm
        have := hs.cache.requirements h e (by simp) d hd
        rw [hda] at this
        exact this
      running := fun e _ => by
        obtain ⟨w, kd, d, hw, hk, hd, -⟩ := hs.runs e rfl
        exact ⟨w, hw, by rw [hk]; rfl, by rw [hd]; rfl⟩
      fault := .inr .rfl }
  exact ⟨hs.heads.change h (fun _ => rfl) (fun j hj => State.modCtx_ctxAt_of_ne _ hj _) (fun _ _ => rfl)
      (by rw [State.modCtx_ctxAt_self]; exact hc.own),
    State.PowerSound.recast hs hc, { State.CacheSound.recast hs hc with },
    (hs.books.takeAssignment ha taken ho.new known rfl).put h m, hs.flags.recast hc⟩

/-- The placement of a taken assignment keeps the laws (R49). -/
theorem State.Sound.placeAssignment {id : CarrierId} {n : Nat} (hs : s.Sound (.placing id (n + 1))) {h : Head}
    {a : Assignment} (ha : a.carrier = id) (ho : s.Offers id h) (known : (s.carrierAt id).isSome = true) :
    (s.placeAssignment h a).Sound (.placing id n) := by
  have shape : (s.ctxAt h).Shaped := (hs.heads h).shaped
  have same (m : HeadMode) (hm : m = .plain) : (Flight.placing id n).put h m = .placing id n := by
    rw [hm]; exact Flight.put_plain rfl
  unfold State.placeAssignment
  split
  · next idle =>
    simp only [HeadCtx.Shaped, idle] at shape
    obtain ⟨current, next, unbound, reqs, cause, held⟩ := shape
    have arrived := hs.takeSlot (m := .transit) (a := a) (current := some { asg := a, promoted := false }) (next := none) ha ho
      known ⟨idle, rfl, fun e => (by cases e), unbound, reqs, cause⟩ (fun e => by simp [idle] at e)
      (by simp [HeadCtx.assignments, current, next])
    have alike : (s.modCtx h fun c => { c with current := some { asg := a, promoted := false } }) =
        s.modCtx h fun c => { c with current := some { asg := a, promoted := false }, next := none } :=
      State.modCtx_congr (by simp [next])
    rw [alike]
    have := arrived.promote (h := h) (by simp) (fun j => by rw [Flight.put_mode]; split <;> simp)
      (by simp) (by simpa using held)
    rwa [Flight.put_put, same _ rfl, Flight.paid_of rfl] at this
  · next busy =>
    have room := ho.room
    have enabled := ho.enabled
    split
    · next full =>
      obtain ⟨cur, hcur⟩ := Option.isSome_iff_exists.mp full
      have next : (s.ctxAt h).next = none := by simpa [HeadCtx.hasRoom, hcur] using room
      have := hs.takeSlot (m := .plain) (a := a) (current := (s.ctxAt h).current) (next := some a) ha ho known ?_
        (fun _ => rfl) (by simp [HeadCtx.assignments, hcur, next])
      · rw [same _ rfl] at this
        exact this
      · show HeadCtx.Shaped _
        cases hst : (s.ctxAt h).state <;> simp_all [HeadCtx.Shaped]
    · next empty =>
      have current : (s.ctxAt h).current = none := by simpa using empty
      have := hs.takeSlot (m := .plain) (a := a) (current := some { asg := a, promoted := false })
        (next := (s.ctxAt h).next) ha ho known ?_ ?_ ?_
      · rw [same _ rfl] at this
        exact this
      · show HeadCtx.Shaped _
        cases hst : (s.ctxAt h).state <;> simp_all [HeadCtx.Shaped]
      · rintro (e | e) <;> simp [HeadCtx.Shaped, e, current] at shape
      · have next : (s.ctxAt h).next = none := by
          cases hst : (s.ctxAt h).state <;> simp_all [HeadCtx.Shaped]
        simp [HeadCtx.assignments, current, next]

theorem State.bindsOnly_placeAssignment (s : State) (h : Head) (a : Assignment) : s.BindsOnly (s.placeAssignment h a) := by
  unfold State.placeAssignment
  split
  · exact (s.bindsOnly_modCtx ..).trans (State.bindsOnly_promote ..)
  · split
    · exact s.bindsOnly_modCtx ..
    · exact s.bindsOnly_modCtx ..

theorem State.placeAssignment_seat_of_ne (s : State) {h j : Head} (hj : j ≠ h) (a : Assignment) :
    ((s.placeAssignment h a).ctxAt j).seat = (s.ctxAt j).seat := by
  unfold State.placeAssignment
  split
  · rw [State.promote_seat_of_ne _ hj, State.modCtx_ctxAt_of_ne _ hj]
  · split
    · rw [State.modCtx_ctxAt_of_ne _ hj]
    · rw [State.modCtx_ctxAt_of_ne _ hj]

/-- The placement of the taken assignments of a carrier, no two for one head, keeps the laws (R49). -/
theorem State.Sound.placeAssignments {id : CarrierId} {as : List (Head × Assignment)} (hs : s.Sound (.placing id as.length))
    (offers : ∀ p ∈ as, p.2.carrier = id ∧ s.Offers id p.1) (distinct : (as.map Prod.fst).Nodup)
    (known : (s.carrierAt id).isSome = true) : (placeAssignments as s).Sound Flight.none := by
  induction as generalizing s with
  | nil => rwa [List.length_nil, Flight.placing_zero] at hs
  | cons p as ih =>
    obtain ⟨h, a⟩ := p
    obtain ⟨hnot, distinct⟩ := List.nodup_cons.mp distinct
    obtain ⟨ha, ho⟩ := offers (h, a) List.mem_cons_self
    refine ih (hs.placeAssignment ha ho known) (fun q hq => ?_) distinct ?_
    · obtain ⟨hqa, hqo⟩ := offers q (List.mem_cons_of_mem _ hq)
      have hne : q.1 ≠ h := fun e => hnot (List.mem_map.mpr ⟨q, hq, e⟩)
      exact ⟨hqa, hqo.of_seat (s.placeAssignment_seat_of_ne hne a)⟩
    · rw [State.carrierAt, (s.bindsOnly_placeAssignment h a).carriers]
      exact known

/-! ### The examination of a frame (R47) -/

theorem State.checkAssignment_ok {earlier : List Nat} {o : Offered} {h : Head} (hc : s.checkAssignment earlier o = .ok h) :
    h.val = o.head ∧ (s.ctxAt h).state ≠ .disabled ∧ o.head ∉ earlier ∧ (s.ctxAt h).hasRoom = true := by
  unfold State.checkAssignment at hc
  split at hc
  · simp only at hc
    split at hc
    · cases hc
    · next enabled =>
      split at hc
      · cases hc
      · next new =>
        split at hc
        · next room =>
          cases hc
          exact ⟨rfl, enabled, by simpa using new, room⟩
        · cases hc
  · cases hc

/-- What the examination of a frame takes: heads that have room, no two alike, each with an assignment of the frame. -/
structure State.TakenFrom (s : State) (earlier : List Nat) (os : List Offered) (as : List (Head × Assignment)) : Prop where
  fits : ∀ p ∈ as, (s.ctxAt p.1).state ≠ .disabled ∧ (s.ctxAt p.1).hasRoom = true ∧ p.1.val ∉ earlier ∧
    ∃ o ∈ os, p.2 = o.asg
  distinct : (as.map Prod.fst).Nodup
  count : as.length ≤ os.length

theorem State.takenFrom_examine (os : List Offered) (earlier : List Nat) (pos : Nat) :
    s.TakenFrom earlier os (s.examine earlier pos os).taken := by
  induction os generalizing earlier pos with
  | nil => exact ⟨by simp [State.examine], by simp [State.examine], Nat.le_refl _⟩
  | cons o os ih =>
    obtain ⟨fits, distinct, count⟩ := ih (o.head :: earlier) (pos + 1)
    have rest : ∀ p ∈ (s.examine (o.head :: earlier) (pos + 1) os).taken, (s.ctxAt p.1).state ≠ .disabled ∧
        (s.ctxAt p.1).hasRoom = true ∧ p.1.val ∉ earlier ∧ ∃ o' ∈ o :: os, p.2 = o'.asg := fun p hp => by
      obtain ⟨enabled, room, new, o', ho', e⟩ := fits p hp
      exact ⟨enabled, room, fun hm => new (List.mem_cons_of_mem _ hm), o', List.mem_cons_of_mem _ ho', e⟩
    unfold State.examine
    cases hc : s.checkAssignment earlier o with
    | error st => exact ⟨rest, distinct, Nat.le_succ_of_le count⟩
    | ok h =>
      obtain ⟨hval, enabled, new, room⟩ := State.checkAssignment_ok hc
      refine ⟨fun p hp => ?_, List.nodup_cons.mpr ⟨fun hm => ?_, distinct⟩, Nat.succ_le_succ count⟩
      · rcases List.mem_cons.mp hp with rfl | hp
        · exact ⟨enabled, room, hval ▸ new, o, List.mem_cons_self, rfl⟩
        · exact rest p hp
      · obtain ⟨q, hq, rfl⟩ := List.mem_map.mp hm
        obtain ⟨-, -, fresh, -⟩ := fits q hq
        exact fresh (hval ▸ List.mem_cons_self)

theorem offeredAt_length (p : List Byte) (i n : Nat) : (offeredAt p i n).length = n := by
  induction n generalizing i with
  | zero => rfl
  | succ n ih => simp [offeredAt, ih]

theorem offeredAt_carrier {p : List Byte} {i n : Nat} {o : Offered} (ho : o ∈ offeredAt p i n) :
    o.asg.carrier = id32At p 0 := by
  induction n generalizing i with
  | zero => cases ho
  | succ n ih =>
    rcases List.mem_cons.mp ho with rfl | ho
    · rfl
    · exact ih ho

/-! ### CARRIER (R46, R47) -/

theorem State.Sound.takeCarrier (hs : s.Sound Flight.none) {id : CarrierId} (hid : s.carrierAt id = none)
    (room : s.carriers.length < Config.carrierCapacity) {as : List (Head × Assignment)} (hn : as.length ≤ 16)
    (fits : ∀ p ∈ as, (s.ctxAt p.1).state ≠ .disabled ∧ (s.ctxAt p.1).hasRoom = true ∧ p.2.carrier = id)
    (distinct : (as.map Prod.fst).Nodup) : (s.takeCarrier id as).Sound Flight.none := by
  unfold State.takeCarrier
  split
  · exact hs
  · have new := hs.withNew hid room hn
    refine State.Sound.startsDone (new.placeAssignments (fun p hp => ?_) distinct ?_) rfl fun _ => by simp
    · obtain ⟨enabled, free, named⟩ := fits p hp
      exact ⟨named, enabled, free, hs.books.unnamed hid p.1⟩
    · simp [State.withNew, State.carrierAt, newCarrier]

theorem State.Sound.carrierWork (hs : s.Sound Flight.none) (p : List Byte) : (carrierWork p s).state.Sound Flight.none := by
  unfold Machine.carrierWork
  simp only
  split
  · exact hs
  · next form =>
    split
    · exact hs
    · next new =>
      split
      · exact hs
      · next room =>
        have taken := s.takenFrom_examine (offeredAt p 5 (u8At p 4)) [] 0
        refine hs.takeCarrier (by simpa using new) (by omega) ?_ (fun q hq => ?_) taken.distinct
        · have := taken.count
          rw [offeredAt_length] at this
          omega
        · obtain ⟨enabled, free, -, o, ho, e⟩ := taken.fits q hq
          exact ⟨enabled, free, by rw [e]; exact offeredAt_carrier ho⟩

end Sys2Proof.Machine
end

section
/-! What the blocks' operations leave of the Ring Port beside its drive slots and general queue, of the enables and of the
fetch limit (R151, R168, R31). -/

namespace Sys2Proof.Machine

/-- The Ring Port beside its drive slots and general queue, the enables and the fetch limit. -/
def State.port (s : State) : RingPort × Causes × Nat :=
  ({ s.ring with drive := [], general := [] }, s.notices.enables, s.cache.fetchLimit)

theorem State.reserved_of_port {s t : State} (h : t.port = s.port) : t.ring.reserved = s.ring.reserved :=
  congrArg (fun p => p.1.reserved) h

theorem State.BindsOnly.port {s t : State} (h : s.BindsOnly t) : t.port = s.port := by
  have ring := congrArg (fun r : RingPort => { r with drive := [] }) h.ring
  simp only [State.port, Prod.mk.injEq]
  exact ⟨ring, by rw [h.notices], h.fetchLimit⟩

variable (s : State)

/-! ### Updates -/

@[simp] theorem State.modCtx_port (h : Head) (f : HeadCtx → HeadCtx) : (s.modCtx h f).port = s.port := rfl
@[simp] theorem State.mapCtx_port (f : Head → HeadCtx → HeadCtx) : (s.mapCtx f).port = s.port := rfl
@[simp] theorem State.modIntake_port (h : Head) (f : Intake → Intake) : (s.modIntake h f).port = s.port := rfl
@[simp] theorem State.modRow_port (h : Head) (f : Row → Row) : (s.modRow h f).port = s.port := rfl
@[simp] theorem State.modEntry_port (e : EntryIx) (f : Entry → Entry) : (s.modEntry e f).port = s.port := rfl
@[simp] theorem State.modCarrier_port (id : CarrierId) (f : CarrierEntry → CarrierEntry) :
    (s.modCarrier id f).port = s.port := rfl
@[simp] theorem State.mapReqs_port (p : Assignment → Bool) (f : Requirements → Requirements) :
    (s.mapReqs p f).port = s.port := rfl
@[simp] theorem State.reportRecords_port : s.reportRecords.port = s.port := rfl
@[simp] theorem State.reportFault_port : s.reportFault.port = s.port := rfl
@[simp] theorem State.reportClaim_port : s.reportClaim.port = s.port := rfl

theorem State.report_port : s.report.port = s.port := by
  simp only [State.report, State.offerAttention]
  repeat' split
  all_goals rfl

/-! ### Grants -/

@[simp] theorem State.placeDrive_port (f : DriveFrame) : (s.placeDrive f).port = s.port := rfl

theorem State.releaseClaims_port (h : Head) : (s.releaseClaims h).port = s.port := by
  rw [State.releaseClaims, State.reportClaim_port]
  unfold State.port
  rfl

@[simp] theorem State.stop_port (h : Head) (c : Bool) : (s.stop h c).port = s.port := by
  rw [State.stop, State.placeDrive_port, State.modRow_port, State.releaseClaims_port]

@[simp] theorem claimWalk_port (h : Head) (js : List Head) (n : Nat) : (claimWalk h js n s).port = s.port := by
  induction js generalizing n s with
  | nil => rfl
  | cons j js ih => unfold claimWalk; split <;> simp [ih]

@[simp] theorem State.claim_port (h : Head) (n : Nat) : (s.claim h n).port = s.port := by
  unfold State.claim
  split
  · split <;> simp
  · rfl

@[simp] theorem State.grantService_port (h : Head) (d : Nat) (a : Option Kind) (f : Option Nat) :
    (s.grantService h d a f).port = s.port := by
  simp [State.grantService]

@[simp] theorem placeCutFrames_port (hs : List Head) : (placeCutFrames hs s).port = s.port := by
  induction hs generalizing s with
  | nil => rfl
  | cons h hs ih => simp [placeCutFrames, ih]

theorem State.applyBudget_port (b : Nat) : (s.applyBudget b).port = s.port := by
  unfold State.applyBudget
  split
  · rw [placeCutFrames_port]
    unfold State.port State.scaleGrants
    rfl
  · rfl

/-! ### Class Cache -/

@[simp] theorem State.oweRetry_port : s.oweRetry.port = s.port := rfl
@[simp] theorem State.invalidate_port (e : EntryIx) : (s.invalidate e).port = s.port := rfl
@[simp] theorem State.runRetry_port : s.runRetry.port = s.port := s.bindsOnly_runRetry.port
@[simp] theorem State.promote_port (h : Head) : (s.promote h).port = s.port := (s.bindsOnly_promote h).port
@[simp] theorem State.nextWork_port (h : Head) : (s.nextWork h).port = s.port := (s.bindsOnly_nextWork h).port
@[simp] theorem State.leaveWait_port (h : Head) : (s.leaveWait h).port = s.port := rfl

@[simp] theorem State.unbind_port (h : Head) : (s.unbind h).port = s.port := by
  unfold State.unbind
  split
  · rfl
  · dsimp only; split <;> rfl

@[simp] theorem moveHeads_port (t : EntryIx) (g : ClassId) (hs : List Head) : (moveHeads t g hs s).port = s.port := by
  induction hs generalizing s with
  | nil => rfl
  | cons h hs ih => rw [moveHeads, ih]; rfl

@[simp] theorem State.settleOverlap_port (t : EntryIx) (d : ClassDesc) (e : EntryIx) :
    (State.settleOverlap t d e s).port = s.port := by
  unfold State.settleOverlap
  dsimp only
  split
  · split
    · simp
    · split <;> simp
    · rfl
  · rfl

@[simp] theorem settleOverlaps_port (t : EntryIx) (d : ClassDesc) (es : List EntryIx) :
    (settleOverlaps t d es s).port = s.port := by
  induction es generalizing s with
  | nil => rfl
  | cons e es ih => simp [settleOverlaps, ih]

@[simp] theorem meetBound_port (hs : List Head) : (meetBound hs s).port = s.port := by
  induction hs generalizing s with
  | nil => rfl
  | cons h hs ih => rw [meetBound, ih]; rfl

@[simp] theorem State.fill_port (t : EntryIx) (d : ClassDesc) : (s.fill t d).port = s.port := by
  rw [State.fill, moveHeads_port]; rfl

@[simp] theorem State.applyLoad_port (t : EntryIx) (d : ClassDesc) : (s.applyLoad t d).port = s.port := by
  simp [State.applyLoad]

@[simp] theorem invalidateAll_port (es : List EntryIx) : (invalidateAll es s).port = s.port := by
  induction es generalizing s with
  | nil => rfl
  | cons e es ih => simp [invalidateAll, ih]

/-! ### Records, carriers and heads -/

@[simp] theorem State.offerJoint_port (h : Head) (r : JointRecord) : (s.offerJoint h r).port = s.port := by
  unfold State.offerJoint; split <;> rfl

@[simp] theorem State.reportEnd_port (id : CarrierId) (k : OutcomeClass) : (s.reportEnd id k).port = s.port := rfl
@[simp] theorem State.reportDiscard_port (id : CarrierId) : (s.reportDiscard id).port = s.port := rfl

@[simp] theorem closeEntries_port (cs : List CarrierEntry) : (closeEntries cs s).port = s.port := by
  induction cs generalizing s with
  | nil => rfl
  | cons c cs ih =>
    rw [closeEntries, ih]
    split
    · split <;> rfl
    · rfl

@[simp] theorem State.closeCarriers_port : s.closeCarriers.port = s.port := by simp [State.closeCarriers]

theorem State.startStep_port (h : Head) (a : Nat) (w : StepWord) : (s.startStep h a w).port = s.port := rfl
@[simp] theorem State.chainNext_port (h : Head) (w : StepWord) : (s.chainNext h w).port = s.port := by
  rw [State.chainNext, State.startStep_port, State.releaseClaims_port]
@[simp] theorem State.chainSegment_port (h : Head) (w : StepWord) : (s.chainSegment h w).port = s.port := rfl

@[simp] theorem endEvent_port (n : Nat) (h : Head) : (endEvent n h s).state.port = s.port := by
  induction n generalizing s with
  | zero => rfl
  | succ n ih =>
    unfold endEvent
    split
    · rfl
    · split <;> simp [ih]
    · split <;> simp [ih]

@[simp] theorem State.takeEndEvent_port (h : Head) : (s.takeEndEvent h).state.port = s.port := by
  simp [State.takeEndEvent]

@[simp] theorem State.startCycle_port (h : Head) (d : ClassDesc) : (s.startCycle h d).state.port = s.port := by
  unfold State.startCycle
  dsimp only
  split
  · split
    · rfl
    · split
      · rw [State.takeEndEvent_port]; rfl
      · rfl
  · rfl

@[simp] theorem State.settleHead_port (h : Head) (o : CycleOutcome) (e : Bool) : (s.settleHead h o e).port = s.port := by
  unfold State.settleHead
  split
  · rw [State.runRetry_port, State.enterFaulted, State.reportFault_port, State.modCtx_port, State.unbind_port]
  · dsimp only; split <;> simp

@[simp] theorem State.terminate_port (h : Head) (e : Ending) : (s.terminate h e).port = s.port := by
  simp [State.terminate]

@[simp] theorem startLoop_port (n : Nat) : (startLoop n s).port = s.port := by
  induction n generalizing s with
  | zero => rfl
  | succ n ih =>
    unfold startLoop
    split
    · rfl
    · rw [ih]
      unfold Progress.finish
      split <;> simp

@[simp] theorem State.startReady_port : s.startReady.port = s.port := by simp [State.startReady]
@[simp] theorem State.startsDone_port : s.startsDone.port = s.port := by simp [State.startsDone]
@[simp] theorem State.conclude_port : s.conclude.port = s.port := by simp [State.conclude]

@[simp] theorem State.discardCurrent_port (h : Head) : (s.discardCurrent h).port = s.port := by
  unfold State.discardCurrent; dsimp only; split <;> simp

@[simp] theorem State.discardWaiting_port (h : Head) : (s.discardWaiting h).port = s.port := by
  unfold State.discardWaiting; split <;> simp

theorem State.driveFault_port (h : Head) : (s.driveFault h).port = s.port := by
  unfold State.driveFault; split <;> simp

/-! ### The place reserved for a reply -/

theorem classloadWork_reserved (p : List Byte) : (classloadWork p s).state.ring.reserved = s.ring.reserved := by
  unfold classloadWork
  split
  · rfl
  · split
    · exact State.reserved_of_port (by simp)
    · rfl
    · rfl

theorem flushClassWork_reserved (p : List Byte) : (flushClassWork p s).state.ring.reserved = s.ring.reserved := by
  have flush (es : List EntryIx) : (s.flush es).state.ring.reserved = s.ring.reserved :=
    State.reserved_of_port (by simp [State.flush])
  unfold flushClassWork
  split
  · rfl
  · split
    · exact flush _
    · exact flush _
    · rfl

theorem State.placeAssignment_port (h : Head) (a : Assignment) : (s.placeAssignment h a).port = s.port :=
  (s.bindsOnly_placeAssignment h a).port

theorem placeAssignments_port (as : List (Head × Assignment)) : (placeAssignments as s).port = s.port := by
  induction as generalizing s with
  | nil => rfl
  | cons a as ih => rw [placeAssignments, ih, State.placeAssignment_port]

theorem carrierWork_reserved (p : List Byte) : (carrierWork p s).state.ring.reserved = s.ring.reserved := by
  have taken (id : CarrierId) (as : List (Head × Assignment)) : (s.takeCarrier id as).ring.reserved = s.ring.reserved := by
    unfold State.takeCarrier
    split
    · rfl
    · refine State.reserved_of_port ?_
      rw [State.closeCarriers_port, State.startReady_port, placeAssignments_port]
      rfl
  unfold carrierWork
  dsimp only
  split
  · rfl
  · split
    · rfl
    · split
      · rfl
      · exact taken _ _

theorem releaseWork_reserved (p : List Byte) : (releaseWork p s).state.ring.reserved = s.ring.reserved := by
  unfold releaseWork
  split
  · rfl
  · split
    · rfl
    · split
      · rfl
      · exact State.reserved_of_port (by simp [State.releaseCarrier])

theorem setBudgetWork_reserved (p : List Byte) : (setBudgetWork p s).state.ring.reserved = s.ring.reserved := by
  unfold setBudgetWork
  split
  · rfl
  · dsimp only
    exact State.reserved_of_port (by rw [Answer.ok_state, State.applyBudget_port])

theorem State.haltHead_port (h : Head) (d : Bool) : (s.haltHead h d).port = s.port := by
  unfold State.haltHead State.haltArming
  split
  · simp
  · dsimp only; split <;> simp
  · rfl
  · rfl

theorem haltHeads_port (d : Bool) (hs : List Head) : (haltHeads d hs s).state.port = s.port := by
  induction hs generalizing s with
  | nil => rfl
  | cons h hs ih => simp [haltHeads, ih, State.haltHead_port]

theorem haltWork_reserved (p : List Byte) : (haltWork p s).state.ring.reserved = s.ring.reserved := by
  have one (h : Head) (d : Bool) : (s.haltOne h d).port = s.port := by
    unfold State.haltOne
    split
    · rw [State.conclude_port, State.haltHead_port]
    · rw [State.conclude_port, State.haltHead_port]
    · rfl
    · rfl
  unfold haltWork
  dsimp only
  split
  · rfl
  · split
    · exact State.reserved_of_port (one _ _)
    · split
      · exact State.reserved_of_port (by rw [Answer.ok_state, State.closeCarriers_port, haltHeads_port])
      · rfl

theorem clearFaultWork_reserved (p : List Byte) : (clearFaultWork p s).state.ring.reserved = s.ring.reserved := by
  have cleared (h : Head) : (s.clearFault h).port = s.port := by
    unfold State.clearFault; dsimp only; split <;> simp
  unfold clearFaultWork
  split
  · rfl
  · split
    · dsimp only
      split
      · refine State.reserved_of_port (s := s) ?_
        rw [Answer.ok_state, State.closeCarriers_port, State.startReady_port, cleared]
      · rfl
    · rfl

theorem startDeferring_port (n : Nat) (ds : List Deferred) : (startDeferring n s ds).state.port = s.port := by
  induction n generalizing s ds with
  | zero => rfl
  | succ n ih => unfold startDeferring; split <;> simp [ih]

theorem State.enterHeld_port (h : Head) (r : JointRecord) : (s.enterHeld h r).port = s.port := by
  have entered : ((s.modCtx h fun c => { c with heldRecord := none }).enterRecord (.joint r)).port = s.port := rfl
  unfold State.enterHeld
  split
  · rw [State.nextWork_port]; exact entered
  · exact entered

theorem State.markClosing_port (id : CarrierId) : (s.markClosing id).port = s.port := rfl

theorem refill_port (n : Nat) (ds : List Deferred) : (refill n s ds).state.port = s.port := by
  have carrier (u : State) (c : CarrierEntry) : (u.enterCarrier c).port = u.port := rfl
  induction n generalizing s ds with
  | zero => rfl
  | succ n ih =>
    unfold refill
    split
    · split
      · rw [ih]
        simp [startDeferring_port, State.markClosing_port, State.enterHeld_port]
      · split
        · rw [ih, carrier]
        · rfl
    · rfl

theorem terminateDeferred_port (ds : List Deferred) : (terminateDeferred ds s).port = s.port := by
  induction ds generalizing s with
  | nil => rfl
  | cons d ds ih => simp [terminateDeferred, ih]

theorem readRecordsWork_reserved (p : List Byte) : (readRecordsWork p s).state.ring.reserved = s.ring.reserved := by
  have taken (n : Nat) : (s.takeRecords n).port = s.port := by
    rw [State.takeRecords, terminateDeferred_port, refill_port]
    rfl
  unfold readRecordsWork
  dsimp only
  split
  · rfl
  · split
    · rfl
    · exact State.reserved_of_port (taken _)

theorem State.announcePending_reserved : s.announcePending.ring.reserved = s.ring.reserved := by
  unfold State.announcePending State.offerAttention
  split
  · split <;> rfl
  · rfl

theorem setNoticesWork_reserved (p : List Byte) : (setNoticesWork p s).state.ring.reserved = s.ring.reserved := by
  unfold setNoticesWork
  split
  · rfl
  · exact State.announcePending_reserved _

theorem setStationWork_reserved (p : List Byte) : (setStationWork p s).state.ring.reserved = s.ring.reserved := by
  unfold setStationWork
  dsimp only
  split
  · rfl
  · split
    · rfl
    · exact State.announcePending_reserved _

theorem resetStationWork_reserved (p : List Byte) : (resetStationWork p s).state.ring.reserved = s.ring.reserved := by
  have stops (hs : List Head) (u : State) : (placeStops hs u).port = u.port := by
    induction hs generalizing u with
    | nil => rfl
    | cons h hs ih => rw [placeStops, ih]; rfl
  unfold resetStationWork
  split
  · rfl
  · exact (State.reserved_of_port (stops _ s) :)

end Sys2Proof.Machine
end

section
/-! The Ring Port, the Notice Unit and the report that ends an operation keep the laws (R151, R155, R158, R165, R169 to R175). -/

namespace Sys2Proof.Machine

variable {s t : State} {k : Flight}

/-! ### Sets of causes -/

theorem Causes.diff_eq_empty_iff {a b : Causes} :
    a.diff b = {} ↔ (a.records = true → b.records = true) ∧ (a.fault = true → b.fault = true) ∧
      (a.claim = true → b.claim = true) ∧ (a.ring = true → b.ring = true) := by
  simp only [Causes.diff, Causes.mk.injEq, Bool.and_eq_false_imp, Bool.not_eq_false']

/-! ### Changes of the flags and buffers -/

/-- The laws after a change of the notices and of the Ring Port beside its drive slots. -/
theorem State.Sound.withFlags (hs : s.Sound k) {r : RingPort} {n : Notices} (hr : r.drive = s.ring.drive)
    (hf : ({ s with ring := r, notices := n } : State).FlagsSound) : ({ s with ring := r, notices := n } : State).Sound k where
  heads := hs.heads
  power := hs.power.congr rfl (fun _ => rfl) (fun _ => rfl) hr
  cache := { hs.cache with }
  books := { hs.books with }
  flags := hf

/-- The laws do not see the time, the pins, the store, the least strength, the pointer and the fetch limit. -/
theorem State.Sound.unseen (hs : s.Sound k) (pending : List Instr) (now : Nat) (pins : Pins) (store : StepStore)
    (minStrength : Nat) (pointer : Head) (fetchLimit : Nat) :
    ({ s with pending, now, pins, store, minStrength, pointer, cache := { s.cache with fetchLimit } } : State).Sound k where
  heads := hs.heads
  power := { hs.power with }
  cache := { hs.cache with }
  books := { hs.books with }
  flags := { hs.flags with }

theorem State.Sound.raise (hs : s.Sound k) {get : Counters → Nat} {set : Counters → Nat → Counters}
    (hc : ∀ n, n ≤ Config.countLimit → ({ s with ring := { s.ring with counters := set s.ring.counters n } } : State).CountersBounded) :
    (s.raise get set).Sound k := by
  have counted : (s.modRing fun r => { r with counters := set r.counters (bump (get s.ring.counters)) }).Sound k :=
    hs.withFlags (r := { s.ring with counters := set s.ring.counters (bump (get s.ring.counters)) }) (n := s.notices) rfl
      { hs.flags with counters := hc _ (bump_le _) }
  unfold State.raise
  dsimp only
  split
  · exact counted.withFlags rfl { counted.flags with }
  · exact counted

theorem State.Sound.raiseForeign (hs : s.Sound k) : s.raiseForeign.Sound k :=
  have ⟨crc, overflow, dropped, _⟩ := hs.flags.counters
  hs.raise fun _ hn => ⟨crc, overflow, dropped, hn⟩

theorem State.Sound.raiseCrc (hs : s.Sound k) : s.raiseCrc.Sound k :=
  have ⟨_, overflow, dropped, foreign⟩ := hs.flags.counters
  hs.raise fun _ hn => ⟨hn, overflow, dropped, foreign⟩

theorem State.Sound.raiseOverflow (hs : s.Sound k) : s.raiseOverflow.Sound k :=
  have ⟨crc, _, dropped, foreign⟩ := hs.flags.counters
  hs.raise fun _ hn => ⟨crc, hn, dropped, foreign⟩

theorem State.Sound.raiseDropped (hs : s.Sound k) : s.raiseDropped.Sound k :=
  have ⟨crc, overflow, _, foreign⟩ := hs.flags.counters
  hs.raise fun _ hn => ⟨crc, overflow, hn, foreign⟩

theorem State.raise_reserved (s : State) (get : Counters → Nat) (set : Counters → Nat → Counters) :
    (s.raise get set).ring.reserved = s.ring.reserved := by
  unfold State.raise; dsimp only; split <;> rfl

theorem State.Sound.offerForward (hs : s.Sound k) (bytes : List Byte) : (s.offerForward bytes).Sound k := by
  unfold State.offerForward
  split
  · next room => exact hs.withFlags rfl { hs.flags with forward := by simp; omega }
  · exact hs.raiseOverflow

theorem State.Sound.reserving (hs : s.Sound k) (place : s.ring.hasPlace = true) : s.reserving.Sound k := by
  refine hs.withFlags rfl { hs.flags with general := ?_ }
  simp only [RingPort.hasPlace, decide_eq_true_eq] at place
  simp only [Bool.toNat_true]
  omega

theorem State.Sound.placeReply (hs : s.Sound k) (hr : s.ring.reserved = true) (f : Frame) : (s.placeReply f).Sound k := by
  refine hs.withFlags rfl { hs.flags with general := ?_ }
  simpa [hr] using hs.flags.general

/-! ### ATTENTION and the report (R169 to R173) -/

theorem State.Sound.offerAttention (hs : s.Sound k) {lost : Causes} (hl : lost.diff s.notices.detected = {}) :
    (s.offerAttention lost).Sound k := by
  have pending := Causes.diff_eq_empty_iff.mp hs.flags.pending
  unfold State.offerAttention
  split
  · next reach =>
    refine hs.withFlags rfl { hs.flags with pending := ?_, general := ?_ }
    · rw [Causes.diff_eq_empty_iff]
      simp only [Notices.pendingAfterFrame, Causes.diff, Bool.and_eq_true]
      exact ⟨fun h => pending.1 h.1, fun h => pending.2.1 h.1, fun h => pending.2.2.1 h.1, fun h => pending.2.2.2 h.1⟩
    · have place : s.ring.hasPlace = true := (Bool.and_eq_true _ _ ▸ reach : _ ∧ _).2
      simp only [RingPort.hasPlace, decide_eq_true_eq] at place
      show (s.ring.general ++ [s.attentionFrame]).length + s.ring.reserved.toNat ≤ _
      rw [List.length_append, List.length_singleton]
      omega
  · refine hs.withFlags rfl { hs.flags with pending := ?_ }
    rw [Causes.diff_eq_empty_iff] at hl ⊢
    simp only [Causes.union, Bool.or_eq_true]
    exact ⟨fun h => h.elim pending.1 hl.1, fun h => h.elim pending.2.1 hl.2.1, fun h => h.elim pending.2.2.1 hl.2.2.1,
      fun h => h.elim pending.2.2.2 hl.2.2.2⟩

/-- The notices a report leaves before it announces. -/
def State.noted (s : State) : Notices :=
  let present := s.notices.reported.inter s.conditions
  let absent := s.notices.reported.diff s.conditions
  { s.notices with
    detected := (s.notices.detected.union present).diff absent,
    pending := (s.notices.pending.diff absent).union ((present.diff s.notices.detected).diff s.notices.enables),
    reported := {} }

theorem State.report_noted (s : State) : s.report = { s with notices := s.noted } ∨
    ∃ lost : Causes, lost.diff s.noted.detected = {} ∧
      s.report = ({ s with notices := s.noted } : State).offerAttention lost := by
  unfold State.report
  dsimp only
  split
  · refine .inr ⟨_, ?_, rfl⟩
    rw [Causes.diff_eq_empty_iff]
    simp only [State.noted, Causes.diff, Causes.inter, Causes.union]
    refine ⟨?_, ?_, ?_, ?_⟩ <;> simp +contextual
  · exact .inl rfl

theorem State.Sound.report (hs : s.Sound k) : s.report.Sound k := by
  have pending := Causes.diff_eq_empty_iff.mp hs.flags.pending
  have follows {r d c : Bool} (h : r = true ∨ d = c) : ((d || (r && c)) && !(r && !c)) = c := by
    revert h; cases r <;> cases d <;> cases c <;> decide
  have noted : ({ s with notices := s.noted } : State).Sound k := hs.withFlags (r := s.ring) rfl
    { records := .inr (follows hs.flags.records)
      fault := .inr (follows hs.flags.fault)
      claim := .inr (follows hs.flags.claim)
      pending := by
        rw [Causes.diff_eq_empty_iff]
        have stays {p d r c e : Bool} (h : p = true → d = true) :
            ((p && !(r && !c)) || (((r && c) && !d) && !e)) = true → ((d || (r && c)) && !(r && !c)) = true := by
          revert h; cases p <;> cases d <;> cases r <;> cases c <;> cases e <;> decide
        exact ⟨stays pending.1, stays pending.2.1, stays pending.2.2.1, stays pending.2.2.2⟩
      forward := hs.flags.forward, general := hs.flags.general, counters := hs.flags.counters }
  rcases s.report_noted with e | ⟨lost, hl, e⟩
  · rw [e]; exact noted
  · rw [e]; exact noted.offerAttention hl

theorem State.Sound.announcePending (hs : s.Sound k) : s.announcePending.Sound k := by
  unfold State.announcePending
  split
  · exact hs.offerAttention (by rw [Causes.diff_eq_empty_iff]; simp)
  · exact hs

/-! ### The end of a command -/

/-- The laws in the course of a command that the part takes, with or without a place reserved for the reply. -/
structure State.Working (s : State) (b : Bool) : Prop where
  sound : s.Sound Flight.none
  reserved : s.ring.reserved = b
  free : s.resetHeld = false

/-- The laws at the end of a command that the part takes. -/
structure State.Calm (s : State) : Prop extends s.Working false where
  reported : s.notices.reported = {}

theorem State.Calm.lawful (h : s.Calm) (hstore : s.StoreSound) : s.Lawful :=
  h.sound.lawful hstore (fun hr => by rw [h.free] at hr; cases hr) h.reserved h.reported

theorem State.Lawful.calm (h : s.Lawful) (hr : s.resetHeld = false) : s.Calm :=
  ⟨⟨h.sound, h.quiet.1, hr⟩, h.quiet.2.1⟩

/-- A step of the work that keeps the laws, the base and the reserved place. -/
theorem State.Working.keep {b : Bool} (hs : s.Working b) (ht : t.Sound Flight.none) (reserved : t.ring.reserved = s.ring.reserved)
    (base : t.base = s.base) : t.Working b :=
  ⟨ht, reserved.trans hs.reserved, (congrArg Base.resetHeld base).trans hs.free⟩

theorem State.Working.report (hs : s.Working false) : s.report.Calm :=
  ⟨hs.keep hs.sound.report (State.reserved_of_port s.report_port) s.report_base, s.report_reported⟩

theorem State.Working.raise {b : Bool} (hs : s.Working b) {get : Counters → Nat} {set : Counters → Nat → Counters}
    (ht : (s.raise get set).Sound Flight.none) : (s.raise get set).Working b :=
  hs.keep ht (s.raise_reserved get set) (s.raise_base get set)

theorem State.Working.offerForward {b : Bool} (hs : s.Working b) (bytes : List Byte) : (s.offerForward bytes).Working b := by
  refine hs.keep (hs.sound.offerForward bytes) ?_ (s.offerForward_base bytes)
  unfold State.offerForward
  split
  · rfl
  · exact s.raise_reserved _ _

theorem State.Working.consumed {src : Byte} {work : State → State} (hs : s.Working false) (hw : (work s).Calm) :
    (consumed src work s).Calm := by
  unfold Machine.consumed
  split
  · exact hw
  · exact (hs.raise hs.sound.raiseForeign).report

theorem State.Working.answered {kind code : Nat} {src tag : Byte} {work : State → Answer} (hs : s.Working false)
    (hw : s.reserving.Working true → (work s.reserving).state.Working true) :
    (answered kind code src tag work s).Calm := by
  unfold Machine.answered
  refine hs.consumed ?_
  dsimp only
  split
  · next place =>
    have work' := hw ⟨hs.sound.reserving place, rfl, hs.free⟩
    have reported := work'.sound.report
    have held : (work s.reserving).state.report.ring.reserved = true :=
      (State.reserved_of_port (State.report_port _)).trans work'.reserved
    exact ⟨⟨reported.placeReply held _, rfl, (congrArg Base.resetHeld (State.report_base _)).trans work'.free⟩,
      State.report_reported _⟩
  · exact (hs.raise hs.sound.raiseDropped).report

end Sys2Proof.Machine
end

section
/-! Grants, claims and budgets keep the laws (R120 to R135). -/

namespace Sys2Proof.Machine

variable {s t : State} {k : Flight}

/-! ### Rows and drive slots -/

/-- Only a HEATING head is named claimant (R132). -/
theorem State.PowerSound.claimant (hp : s.PowerSound) {j : Head} {c : Cap} (hc : c ∈ (s.rowAt j).cap) :
    (s.ctxAt c.claimant).state = .heating := by
  by_contra hn
  exact (hp.resting c.claimant hn).2 j c hc rfl

/-- The laws after a change of the power share table. -/
theorem State.Sound.withShare (hs : s.Sound k) {share : PerHead Row}
    (sum : ({ s with share } : State).grantSum ≤ s.budget)
    (rows : ∀ j, (({ s with share } : State).rowAt j).grant ≤ (({ s with share } : State).rowAt j).demand)
    (resting : ∀ j, (s.ctxAt j).state ≠ .heating → ({ s with share } : State).rowAt j = {})
    (claims : ∀ j, ∀ c ∈ (({ s with share } : State).rowAt j).cap, (s.ctxAt c.claimant).state = .heating)
    (claim : s.notices.reported.claim = true ∨
      ∀ j, (({ s with share } : State).rowAt j).cap.isSome = (s.rowAt j).cap.isSome) : ({ s with share } : State).Sound k where
  heads := hs.heads.congr rfl (fun _ => rfl) fun _ => rfl
  power := ⟨⟨sum, hs.power.power.2⟩, rows,
    fun j hj => ⟨resting j hj, fun i c hc e => hj (e ▸ claims i c hc)⟩, hs.power.integrators, hs.power.drives,
    hs.power.restingFrames⟩
  cache := hs.cache.congr rfl (fun _ => rfl) rfl rfl (fun _ => rfl) fun _ _ _ _ => rfl
  books := hs.books.congr rfl rfl fun _ => rfl
  flags := hs.flags.change rfl rfl (.inr ⟨rfl, rfl⟩) (.inr ⟨rfl, State.faultPresent_congr fun _ => .rfl⟩)
    (claim.imp id fun e => ⟨rfl, State.claimPresent_congr e⟩) rfl hs.flags.general rfl

theorem State.Sound.reportClaim (hs : s.Sound k) : s.reportClaim.Sound k :=
  hs.withFlags rfl { hs.flags with claim := .inl rfl }

/-- The placement of a DRIVE frame of a HEATING head (R134). -/
theorem State.Sound.placeDrive (hs : s.Sound k) {f : DriveFrame} (hf : (s.ctxAt f.head).state = .heating) :
    (s.placeDrive f).Sound k where
  heads := hs.heads.congr rfl (fun _ => rfl) fun _ => rfl
  power := by
    have hp := hs.power
    refine ⟨hp.power, hp.demands, hp.resting, hp.integrators, placeIn_nodup hp.drives f, fun g hg hh => ?_⟩
    by_cases hne : g.head = f.head
    · rw [hne] at hh
      exact absurd hf hh
    · refine hp.restingFrames g ?_ hh
      have : g ∈ (placeIn s.ring.drive f).filter fun x => x.head ≠ f.head := List.mem_filter.mpr ⟨hg, by simpa using hne⟩
      rw [placeIn_others] at this
      exact (List.mem_filter.mp this).1
  cache := { hs.cache with }
  books := { hs.books with }
  flags := { hs.flags with }

/-! ### The service of a HEATING head (R123 to R126) -/

theorem State.otherGrants_add (s : State) (h : Head) : s.otherGrants h + (s.rowAt h).grant = s.grantSum := by
  have erased : (allHeads.filter fun j => j ≠ h) = allHeads.erase h := by
    rw [allHeads_nodup.erase_eq_filter]
    exact List.filter_congr fun j _ => by simp [bne, beq_eq_decide]
  rw [State.otherGrants, State.grantSum, erased, Nat.add_comm]
  exact List.sum_map_erase (fun j => (s.rowAt j).grant) (mem_allHeads h)

theorem claimWalk_eq (h : Head) (js : List Head) (n : Nat) (s : State) :
    claimWalk h js n s = { s with share := (claimWalk h js n s).share } := by
  induction js generalizing n s with
  | nil => rfl
  | cons j js ih =>
    unfold claimWalk
    split
    · rfl
    · exact ih ..

/-- A walk over donors sets no cap but those of its own head (R126). -/
theorem claimWalk_cap (h : Head) (js : List Head) (n : Nat) (s : State) (i : Head) :
    ∀ c ∈ ((claimWalk h js n s).rowAt i).cap, c ∈ (s.rowAt i).cap ∨ c.claimant = h := by
  induction js generalizing n s with
  | nil => exact fun c hc => .inl hc
  | cons j js ih =>
    unfold claimWalk
    split
    · exact fun c hc => .inl hc
    · intro c hc
      refine (ih _ _ c hc).elim (fun hc => ?_) .inr
      rw [State.modRow_rowAt] at hc
      split at hc
      · cases hc; exact .inr rfl
      · exact .inl hc

theorem State.mem_donors {tier : Tier} {j : Head} (hj : j ∈ s.donors tier) : 0 < (s.rowAt j).grant := by
  simp only [State.donors, List.mem_flatMap, List.mem_filter, Bool.and_eq_true, decide_eq_true_eq] at hj
  obtain ⟨-, -, -, -, hj⟩ := hj
  exact hj

/-- What a claim leaves of the rows: grants and demands as they were, caps as they were or the claimant's own, and a row
with no grant untouched (R125, R126). -/
structure State.ClaimedBy (s : State) (h : Head) (share : PerHead Row) : Prop where
  grant : ∀ j, (({ s with share } : State).rowAt j).grant = (s.rowAt j).grant
  demand : ∀ j, (({ s with share } : State).rowAt j).demand = (s.rowAt j).demand
  cap : ∀ j, ∀ c ∈ (({ s with share } : State).rowAt j).cap, c ∈ (s.rowAt j).cap ∨ c.claimant = h
  idle : ∀ j, (s.rowAt j).grant = 0 → ({ s with share } : State).rowAt j = s.rowAt j

theorem State.claim_cases (s : State) (h : Head) (short : Nat) :
    s.claim h short = s ∨ ∃ share, s.ClaimedBy h share ∧ s.claim h short = { s.reportClaim with share } := by
  unfold State.claim
  split
  · next tier _ =>
    split
    · exact .inl rfl
    · refine .inr ⟨(claimWalk h (s.donors tier) short s).share, ⟨fun j => ?_, fun j => ?_, fun j => ?_, fun j hj => ?_⟩, ?_⟩
      · exact (claimWalk_rowAt h (s.donors tier) short s j).1
      · exact (claimWalk_rowAt h (s.donors tier) short s j).2.1
      · exact claimWalk_cap h (s.donors tier) short s j
      · refine (claimWalk_rowAt h (s.donors tier) short s j).2.2.2 fun hm => ?_
        have := State.mem_donors hm
        omega
      · rw [claimWalk_eq]; rfl
  · exact .inl rfl

theorem State.Sound.claim (hs : s.Sound k) {h : Head} (hh : (s.ctxAt h).state = .heating) (short : Nat) :
    (s.claim h short).Sound k := by
  rcases s.claim_cases h short with e | ⟨share, claimed, e⟩
  · rw [e]; exact hs
  · rw [e]
    refine hs.reportClaim.withShare ?_ (fun j => ?_) (fun j hj => ?_) (fun j c hc => ?_) (.inl rfl)
    · exact (State.grantSum_congr (s := s) claimed.grant).le.trans hs.power.power.1
    · exact (claimed.grant j).le.trans ((hs.power.demands j).trans (claimed.demand j).ge)
    · have row := (hs.power.resting j hj).1
      exact (claimed.idle j (by rw [row])).trans row
    · rcases claimed.cap j c hc with hc | rfl
      · exact hs.power.claimant hc
      · exact hh

theorem State.claim_ctxAt (s : State) (h : Head) (short : Nat) (j : Head) : (s.claim h short).ctxAt j = s.ctxAt j := by
  rcases s.claim_cases h short with e | ⟨share, -, e⟩ <;> rw [e] <;> rfl

/-- A service of a HEATING head hands in its demand (R123). -/
theorem State.Sound.grantService (hs : s.Sound k) {h : Head} (hh : (s.ctxAt h).state = .heating) (demand : Nat)
    (activity : Option Kind) (feed : Option Nat) : (s.grantService h demand activity feed).Sound k := by
  have hp := hs.power
  obtain ⟨within, room, -⟩ := grantOf_le demand (s.headroom h) (s.rowAt h).cap
  have row (j : Head) : (s.modRow h fun r => { r with demand, grant := s.grantFor h demand }).rowAt j =
      if j = h then { s.rowAt h with demand, grant := s.grantFor h demand } else s.rowAt j := State.modRow_rowAt ..
  have cap (j : Head) : ((s.modRow h fun r => { r with demand, grant := s.grantFor h demand }).rowAt j).cap = (s.rowAt j).cap := by
    rw [row]; split
    · next e => rw [e]
    · rfl
  have granted : (s.modRow h fun r => { r with demand, grant := s.grantFor h demand }).Sound k := by
    refine hs.withShare ?_ (fun j => ?_) (fun j hj => ?_) (fun j c hc => ?_) (.inr fun j => by rw [← cap j]; rfl)
    · have others := s.otherGrants_add h
      have sum := sum_allHeads (f := fun j => ((s.modRow h fun r => { r with demand, grant := s.grantFor h demand }).rowAt j).grant)
        (g := fun j => (s.rowAt j).grant) h fun j hj => by rw [row, if_neg hj]
      have own : ((s.modRow h fun r => { r with demand, grant := s.grantFor h demand }).rowAt h).grant = s.grantFor h demand := by
        rw [row, if_pos rfl]
      have bound : s.grantFor h demand ≤ s.budget - s.otherGrants h := room
      have total := hp.power.1
      change (allHeads.map fun j => ((s.modRow h fun r => { r with demand, grant := s.grantFor h demand }).rowAt j).grant).sum ≤ _
      simp only [own] at sum
      rw [State.grantSum] at others total
      omega
    · have : ((s.modRow h fun r => { r with demand, grant := s.grantFor h demand }).rowAt j).grant ≤
          ((s.modRow h fun r => { r with demand, grant := s.grantFor h demand }).rowAt j).demand := by
        rw [row]
        split
        · exact within
        · exact hp.demands j
      exact this
    · have hne : j ≠ h := by rintro rfl; exact hj hh
      exact ((row j).trans (if_neg hne)).trans (hp.resting j hj).1
    · exact hp.claimant (show c ∈ (s.rowAt j).cap from cap j ▸ hc)
  exact (granted.claim hh _).placeDrive (by rw [State.claim_ctxAt]; exact hh)

/-! ### The budget (R121, R130) -/

theorem State.Sound.placeCutFrames (hs : s.Sound k) {hs' : List Head} (hh : ∀ h ∈ hs', (s.ctxAt h).state = .heating) :
    (placeCutFrames hs' s).Sound k := by
  induction hs' generalizing s with
  | nil => exact hs
  | cons h hs' ih =>
    exact ih (hs.placeDrive (hh h List.mem_cons_self)) fun j hj => hh j (List.mem_cons_of_mem _ hj)

theorem State.Sound.applyBudget (hs : s.Sound k) {b : Nat} (hb : b ≤ Config.budgetLimit) : (s.applyBudget b).Sound k := by
  have hp := hs.power
  have set {u : State} (hu : u.Sound k) (fits : u.grantSum ≤ b) : ({ u with budget := b } : State).Sound k :=
    ⟨hu.heads, ⟨⟨fits, hb⟩, hu.power.demands, hu.power.resting, hu.power.integrators, hu.power.drives, hu.power.restingFrames⟩,
      { hu.cache with }, { hu.books with }, { hu.flags with }⟩
  unfold State.applyBudget
  split
  · next cut =>
    have row (j : Head) : (s.scaleGrants b).rowAt j =
        { s.rowAt j with grant := scaledGrant b s.grantSum (s.rowAt j).grant } := by
      simp [State.scaleGrants, State.rowAt]
    have cap (j : Head) : ((s.scaleGrants b).rowAt j).cap = (s.rowAt j).cap := by rw [row]
    have kept : (s.scaleGrants b).ctx = s.ctx := by unfold State.scaleGrants; rfl
    have less (j : Head) : scaledGrant b s.grantSum (s.rowAt j).grant ≤ (s.rowAt j).grant := scaledGrant_le (by omega) _
    have sum : (s.scaleGrants b).grantSum ≤ s.grantSum := State.grantSum_le fun j => by rw [row]; exact less j
    have scaled : (s.scaleGrants b).Sound k := by
      refine hs.withShare (sum.trans hp.power.1) (fun j => ?_) (fun j hj => ?_) (fun j c hc => ?_) (.inr fun j => ?_)
      · exact (congrArg Row.grant (row j)).le.trans ((less j).trans ((hp.demands j).trans (congrArg Row.demand (row j)).ge))
      · have empty := (hp.resting j hj).1
        refine (row j).trans ?_
        rw [empty]
        simp [scaledGrant]
      · exact hp.claimant ((cap j).subst (motive := fun x => c ∈ x) hc)
      · exact congrArg Option.isSome (cap j)
    have fits : (s.scaleGrants b).grantSum ≤ b := by
      have : (s.scaleGrants b).grantSum = (allHeads.map fun j => (s.rowAt j).grant * b / s.grantSum).sum := by
        rw [State.grantSum]
        simp only [row]
        rfl
      rw [this]
      have floor (l : List Head) : (l.map fun j => (s.rowAt j).grant * b / s.grantSum).sum ≤
          (l.map fun j => (s.rowAt j).grant).sum * b / s.grantSum := by
        induction l with
        | nil => simp
        | cons a l ih =>
          simp only [List.map_cons, List.sum_cons, Nat.add_mul]
          exact (Nat.add_le_add_left ih _).trans Nat.div_add_div_le_add_div
      refine (floor allHeads).trans ?_
      exact Nat.div_le_of_le_mul (Nat.le_of_eq rfl)
    have running (h : Head) (hh : h ∈ s.cutHeads b) : (s.ctxAt h).state = .heating := by
      by_contra hn
      have empty := (hp.resting h hn).1
      simp [State.cutHeads, empty, scaledGrant] at hh
    have cut := set scaled fits
    generalize hu : ({ s.scaleGrants b with budget := b } : State) = u at cut
    have same : u.ctx = s.ctx := by rw [← hu]; exact kept
    have ctx (h : Head) : u.ctxAt h = s.ctxAt h := by rw [State.ctxAt, same]; rfl
    exact cut.placeCutFrames fun h hh => by rw [ctx]; exact running h hh
  · next fits => exact set hs (by omega)

end Sys2Proof.Machine
end

section
/-! SAMPLE, DSTAT and SERVICE keep the laws (R91 to R108, R117). -/

namespace Sys2Proof.Machine

variable {s t : State} {k : Flight}

/-! ### Fields of a context that no law sees -/

/-- A context without the fields that no law of the part sees. -/
def HeadCtx.bare (c : HeadCtx) : HeadCtx :=
  { c with stepAddr := 0, stepClock := 0, feedBaseline := none, lastTemp := none, peak := none, wet := 0, energy := 0,
           missed := 0, overruns := 0 }

/-- A change of fields that no law sees keeps the laws. -/
theorem State.Sound.modBare (hs : s.Sound k) {h : Head} {f : HeadCtx → HeadCtx}
    (same : (f (s.ctxAt h)).bare = (s.ctxAt h).bare) : (s.modCtx h f).Sound k := by
  have view {α : Type} (v : HeadCtx → α) (hv : ∀ c : HeadCtx, v c = v c.bare) (j : Head) :
      v ((s.modCtx h f).ctxAt j) = v (s.ctxAt j) := State.modCtx_view v (by rw [hv, same, ← hv]) j
  refine ⟨?_, hs.power.congr rfl (fun _ => rfl) (view HeadCtx.loop fun _ => rfl) rfl,
    hs.cache.congr rfl (fun _ => rfl) rfl rfl (view HeadCtx.place fun _ => rfl) fun _ _ _ _ => rfl,
    hs.books.congr rfl rfl (view HeadCtx.work fun _ => rfl),
    hs.flags.congr rfl rfl (State.faultPresent_congr fun j => by rw [view HeadCtx.state fun _ => rfl])
      (State.claimPresent_congr fun _ => rfl) rfl rfl rfl rfl⟩
  rw [← Function.update_eq_self h k.mode]
  refine hs.heads.change h (fun _ => rfl) (fun j hj => State.modCtx_ctxAt_of_ne _ hj _) (fun _ _ => rfl) ?_
  rw [State.modCtx_ctxAt_self]
  have bare {c : HeadCtx} {stale : Option Nat} {enable : Bool} :
      HeadOk (k.mode h) c stale enable ↔ HeadOk (k.mode h) c.bare stale enable := by
    constructor <;> rintro ⟨shaped, rested, unwatched, enabled⟩ <;> refine ⟨?_, rested, unwatched, enabled⟩ <;>
      revert shaped <;> cases k.mode h <;> exact id
  rw [bare, same, ← bare]
  exact hs.heads h

/-! ### SAMPLE (R91 to R94) -/

theorem State.Sound.takeSequence (hs : s.Sound k) (h : Head) (seq : Byte) : (s.takeSequence h seq).Sound k := by
  unfold State.takeSequence
  refine State.Sound.modIntake (State.Sound.modBare hs rfl) fun e => (hs.heads h).unwatched ?_
  rwa [State.modCtx_ctxAt_self] at e

theorem State.Sound.takeStrong (hs : s.Sound k) (h : Head) (seq : Byte) (temp : Nat) : (s.takeStrong h seq temp).Sound k := by
  unfold State.takeStrong
  refine State.Sound.modIntake (State.Sound.modBare hs rfl) fun e => ?_
  have cold : (s.ctxAt h).state ≠ .heating := by rwa [State.modCtx_ctxAt_self] at e
  simpa [cold] using (hs.heads h).unwatched cold

theorem State.Sound.takeSample (hs : s.Sound k) (src : Byte) (p : List Byte) : (s.takeSample src p).Sound k := by
  unfold State.takeSample
  split
  · next h _ =>
    unfold State.acceptSample
    dsimp only
    split
    · exact hs
    · split
      · exact hs.takeSequence h _
      · exact (hs.takeSequence h _).takeStrong h _ _
  · exact hs.raiseForeign

/-! ### DSTAT (R100 to R103) -/

/-- A change in the course of a HEATING head's cycle that keeps its step and its accumulator. -/
theorem State.Sound.inStep (hs : s.Sound k) {h : Head} (hm : k.mode h = .plain) (hh : (s.ctxAt h).state = .heating)
    {f : HeadCtx → HeadCtx} (keeps : (f (s.ctxAt h)).cycle = (s.ctxAt h).cycle)
    (acc : (f (s.ctxAt h)).iAcc ≤ 256 * (s.configAt h).rating) (step : (f (s.ctxAt h)).step = (s.ctxAt h).step) :
    (s.modCtx h f).Sound k := by
  obtain ⟨w, kd, d, hw, hk, hd, -⟩ := hs.runs hh hm
  have := hs.inCycle hh (.inl rfl) keeps acc fun _ => ⟨w, step.trans hw, by rw [hk]; rfl, by rw [hd]; rfl⟩
  rwa [Flight.put_plain hm] at this

theorem State.Sound.accountEnergy (hs : s.Sound k) {h : Head} (hm : k.mode h = .plain) (n : Nat) :
    (s.accountEnergy h n).Sound k := by
  unfold State.accountEnergy
  split
  · next hh => exact hs.inStep hm hh rfl (hs.power.integrators h).1 rfl
  · exact hs

theorem State.Sound.takeFeedCounter (hs : s.Sound Flight.none) (h : Head) (n : Byte) :
    (s.takeFeedCounter h n).Sound Flight.none := by
  have recorded := hs.modIntake (h := h) (f := fun i => { i with lastFeed := some n }) (hs.heads h).unwatched
  unfold State.takeFeedCounter
  dsimp only
  split
  · next heating =>
    split
    · exact recorded.modBare rfl
    · split
      · exact recorded
      · exact (recorded.endEvent heating.1 rfl 1026).concludeProgress rfl (fun j => by simp) rfl
          ((endEvent_state ..).trans heating.1)
  · exact recorded

theorem State.Sound.takeDstat (hs : s.Sound Flight.none) (src : Byte) (p : List Byte) :
    (s.takeDstat src p).Sound Flight.none := by
  unfold State.takeDstat
  split
  · next h _ =>
    have counted := hs.accountEnergy (h := h) rfl (min (u16At p 1) 2500)
    unfold State.acceptDstat
    dsimp only
    split
    · exact ((counted.driveFault rfl h rfl fun j => by simp).takeFeedCounter h _).conclude rfl fun j => by simp
    · exact counted.takeFeedCounter h _
  · exact hs.raiseForeign

/-! ### SERVICE (R97, R98, R105 to R117) -/

theorem nextAcc_le {acc ki rating : Nat} (h : acc ≤ 256 * rating) (limited : Bool) (e : Int) :
    nextAcc acc ki rating limited e ≤ 256 * rating := by
  unfold nextAcc clampInt
  split <;> omega

theorem State.demandOf_acc_le (s : State) (h : Head) (kd : Kind) (w : StepWord) (d : ClassDesc) (tm : Nat)
    (ha : (s.ctxAt h).iAcc ≤ 256 * (s.configAt h).rating) : (s.demandOf h kd w d tm).acc ≤ 256 * (s.configAt h).rating := by
  cases kd with
  | hold | cool => exact ha
  | ramp | soak | feed => exact nextAcc_le ha _ _

theorem State.grantService_ctxAt (s : State) (h : Head) (d : Nat) (a : Option Kind) (f : Option Nat) (j : Head) :
    (s.grantService h d a f).ctxAt j = s.ctxAt j := by
  unfold State.grantService
  exact State.claim_ctxAt ..

theorem State.Sound.driveHead (hs : s.Sound k) {h : Head} (hm : k.mode h = .plain) (hh : (s.ctxAt h).state = .heating)
    (kd : Kind) (w : StepWord) (d : ClassDesc) (tm : Nat) : (s.driveHead h kd w d tm).Sound k := by
  have granted := hs.grantService hh (s.demandOf h kd w d tm).demand (some kd) (feedRequest kd w (s.ctxAt h))
  unfold State.driveHead
  refine State.Sound.inStep granted hm (by rw [State.grantService_ctxAt]; exact hh) (by rfl) ?_ (by rfl)
  rw [State.config_of_base (State.grantService_base ..)]
  exact s.demandOf_acc_le h kd w d tm (hs.power.integrators h).1

theorem State.driveHead_state (s : State) (h : Head) (kd : Kind) (w : StepWord) (d : ClassDesc) (tm : Nat) :
    ((s.driveHead h kd w d tm).ctxAt h).state = (s.ctxAt h).state := by
  unfold State.driveHead
  dsimp only
  rw [State.modCtx_ctxAt_self, State.grantService_ctxAt]

theorem bookkeep_cycle (kd : Kind) (d : ClassDesc) (staleness now tm : Nat) (c : HeadCtx) :
    (bookkeep kd d staleness now tm c).cycle = c.cycle ∧ (bookkeep kd d staleness now tm c).iAcc = c.iAcc ∧
      (bookkeep kd d staleness now tm c).step = c.step := by
  unfold bookkeep supplyStart
  split <;> exact ⟨rfl, rfl, rfl⟩

theorem State.Sound.serveStep (hs : s.Sound Flight.none) {h : Head} (hh : (s.ctxAt h).state = .heating) (kd : Kind)
    (w : StepWord) (d : ClassDesc) (tm : Nat) :
    (s.serveStep h kd w d tm).state.Sound Flight.none ∧ ((s.serveStep h kd w d tm).state.ctxAt h).state = .heating := by
  obtain ⟨keeps, acc, step⟩ := bookkeep_cycle kd d (s.configAt h).staleness s.now tm { s.ctxAt h with lastTemp := some tm }
  have booked := hs.inStep (h := h) rfl hh
    (f := fun c => bookkeep kd d (s.configAt h).staleness s.now tm { c with lastTemp := some tm })
    keeps (acc.le.trans (hs.power.integrators h).1) step
  have heating : ((s.modCtx h fun c => bookkeep kd d (s.configAt h).staleness s.now tm
      { c with lastTemp := some tm }).ctxAt h).state = .heating := by
    rw [State.modCtx_ctxAt_self]
    exact (congrArg Prod.fst keeps).trans hh
  have driven := booked.driveHead (h := h) rfl heating kd w d tm
  have runs := (State.driveHead_state _ h kd w d tm).trans heating
  unfold State.serveStep
  split
  · dsimp only
    refine ⟨hs.modBare rfl, ?_⟩
    rw [State.modCtx_ctxAt_self]
    exact hh
  · dsimp only
    split
    · exact ⟨driven.endEvent runs rfl 1026, (endEvent_state ..).trans runs⟩
    · exact ⟨driven, runs⟩

theorem State.Sound.serveHead (hs : s.Sound Flight.none) (h : Head) (tm : Nat) : (s.serveHead h tm).Sound Flight.none := by
  have noted : (s.modCtx h fun c => { c with lastTemp := some tm }).Sound Flight.none := hs.modBare rfl
  unfold State.serveHead
  split
  · next hh =>
    split
    · next w kd d _ =>
      obtain ⟨served, runs⟩ := hs.serveStep hh kd w d tm
      exact served.concludeProgress rfl (fun j => by simp) rfl runs
    · exact noted
  all_goals first | exact noted | exact hs

theorem State.Sound.takeService (hs : s.Sound Flight.none) : s.takeService.Sound Flight.none := by
  unfold State.takeService
  split
  · exact hs
  · next h p _ =>
    have turned : ({ s with pointer := h } : State).Sound Flight.none :=
      hs.unseen s.pending s.now s.pins s.store s.minStrength h s.cache.fetchLimit
    exact (turned.modIntake (h := h) (f := fun i => { i with slot := none }) (turned.heads h).unwatched).serveHead h p.temp

end Sys2Proof.Machine
end

section
/-! SET_HEAD, the requests of the Ring Port and the Notice Unit, the resets, ring-out and the tick keep the laws (R4, R65, R88,
R95, R152, R159, R162, R164, R174, R175). -/

namespace Sys2Proof.Machine

variable {s t : State} {k : Flight}

/-! ### SET_HEAD (R65, R99) -/

/-- A resting head without work, as the laws of the cache see it: it is neither bound nor in line for a class. -/
theorem State.CacheSound.setIdle (hc : s.CacheSound k) {h : Head} (hh : (s.ctxAt h).state ≠ .arming) {st : HeadState}
    (ha : st ≠ .arming) (hw : st ≠ .heating) : (s.modCtx h fun c => { c with state := st }).CacheSound k := by
  have binding (j : Head) : ((s.modCtx h fun c => { c with state := st }).ctxAt j).binding = (s.ctxAt j).binding :=
    State.modCtx_view HeadCtx.binding (by rfl) j
  have current (j : Head) : ((s.modCtx h fun c => { c with state := st }).ctxAt j).current = (s.ctxAt j).current :=
    State.modCtx_view HeadCtx.current (by rfl) j
  have same {j : Head} (hj : ((s.modCtx h fun c => { c with state := st }).ctxAt j).state = .arming ∨
      ((s.modCtx h fun c => { c with state := st }).ctxAt j).state = .heating) :
      (s.modCtx h fun c => { c with state := st }).ctxAt j = s.ctxAt j := by
    refine State.modCtx_ctxAt_of_ne _ (fun e => ?_) _
    subst e
    rw [State.modCtx_ctxAt_self] at hj
    exact hj.elim ha hw
  have desc (j : Head) : (s.modCtx h fun c => { c with state := st }).boundDesc j = s.boundDesc j :=
    State.boundDesc_congr (binding j) fun _ _ => rfl
  refine
    { recency := hc.recency, oneMatch := hc.oneMatch, descriptors := hc.descriptors, noVictim := hc.noVictim, owes := hc.owes
      users := fun e => by rw [State.boundHeads_congr binding]; exact hc.users e
      bindings := fun j b hb => by
        rw [binding] at hb
        rw [State.requestedId_congr (current j)]
        exact hc.bindings j b hb
      waiters := ⟨hc.waiters.1, fun w hw => ?_⟩
      placed := fun j hj hm => by
        have e := same (.inl hj)
        rw [e] at hj ⊢
        exact hc.placed j hj hm
      requirements := fun j hj hm c hcur => by
        have e := same (.inl hj)
        rw [e] at hj hcur ⊢
        rw [desc, State.requirementsFor_congr (s := s) (t := s.modCtx h fun c => { c with state := st }) rfl rfl
          (by rw [e])]
        exact hc.requirements j hj hm c hcur
      running := fun j hj hm => by
        have e := same (.inr hj)
        rw [e] at hj
        rw [State.runningStep_congr (s := s) (by rw [e]) (desc j)]
        exact hc.running j hj hm }
  have hne : w.head ≠ h := by rintro rfl; exact hh (hc.waiters.2 w hw).1
  rw [State.modCtx_ctxAt_of_ne _ hne]
  exact hc.waiters.2 w hw

theorem State.Sound.applyConfig (hs : s.Sound Flight.none) {h : Head}
    (hh : (s.ctxAt h).state = .idle ∨ (s.ctxAt h).state = .disabled) {c : HeadConfig} (hr : c.rating ≤ Config.powerLimit) :
    (s.applyConfig h c).Sound Flight.none := by
  have arming : (s.ctxAt h).state ≠ .arming := by rcases hh with e | e <;> rw [e] <;> decide
  have cold : (s.ctxAt h).state ≠ .heating := by rcases hh with e | e <;> rw [e] <;> decide
  have rest := hs.atRest cold
  have ctx (j : Head) : (s.applyConfig h c).ctxAt j =
      (s.modCtx h fun x => { x with state := if c.enable then .idle else .disabled }).ctxAt j := rfl
  have config (j : Head) : (s.applyConfig h c).configAt j = if j = h then c else s.configAt j := State.setConfig_configAt ..
  have idle : (if c.enable then HeadState.idle else .disabled) ≠ .arming ∧
      (if c.enable then HeadState.idle else .disabled) ≠ .heating ∧
      (if c.enable then HeadState.idle else .disabled) ≠ .faulted := by split <;> decide
  have cache := hs.cache.setIdle arming idle.1 idle.2.1
  have view {α : Type} (v : HeadCtx → α) (hv : ∀ x : HeadCtx, ∀ st, v { x with state := st } = v x) (j : Head) :
      v ((s.applyConfig h c).ctxAt j) = v (s.ctxAt j) := by
    rw [ctx]; exact State.modCtx_view v (hv _ _) j
  refine ⟨fun j => ?_, ⟨hs.power.power, hs.power.demands, fun j hj => ?_, fun j => ?_, hs.power.drives, fun f hf hj => ?_⟩,
    { cache with }, hs.books.congr rfl rfl (view HeadCtx.work fun _ _ => rfl),
    hs.flags.congr rfl rfl (State.faultPresent_congr fun j => ?_) (State.claimPresent_congr fun _ => rfl) rfl rfl rfl rfl⟩
  · have ok := hs.heads j
    by_cases hj : j = h
    · subst hj
      have shape : (s.ctxAt j).Shaped := ok.shaped
      rw [ctx, config, if_pos rfl, State.modCtx_ctxAt_self]
      refine ⟨?_, fun _ => ok.rested cold, fun _ => ?_, ?_⟩
      · show HeadCtx.Shaped _
        rcases hh with e | e <;> cases c.enable <;> simpa [HeadCtx.Shaped, e] using shape
      · rw [State.applyConfig, State.modIntake_intakeAt_self]
        exact rest.stale
      · show (if c.enable then HeadState.idle else .disabled) = .disabled ↔ c.enable = false
        cases c.enable <;> decide
    · rw [ctx, config, if_neg hj, State.modCtx_ctxAt_of_ne _ hj, State.applyConfig, State.modIntake_intakeAt_of_ne _ hj]
      exact ok
  · by_cases hne : j = h
    · subst hne; exact ⟨rest.row, rest.claims⟩
    · rw [ctx, State.modCtx_ctxAt_of_ne _ hne] at hj
      exact hs.power.resting j hj
  · obtain ⟨h1, h2, h3⟩ := hs.power.integrators j
    rw [config]
    by_cases hne : j = h
    · subst hne
      rw [if_pos rfl, ctx, State.modCtx_ctxAt_self]
      exact ⟨by rw [rest.acc]; exact Nat.zero_le _, hr, fun _ => ⟨rest.acc, rest.limited⟩⟩
    · rw [if_neg hne, ctx, State.modCtx_ctxAt_of_ne _ hne]
      exact ⟨h1, h2, h3⟩
  · by_cases hne : f.head = h
    · exact rest.frames f hf hne
    · rw [ctx, State.modCtx_ctxAt_of_ne _ hne] at hj
      exact hs.power.restingFrames f hf hj
  · by_cases hne : j = h
    · subst hne
      rw [ctx, State.modCtx_ctxAt_self]
      refine ⟨fun e => absurd e idle.2.2, fun e => ?_⟩
      rcases hh with e' | e' <;> rw [e'] at e <;> cases e
    · rw [ctx, State.modCtx_ctxAt_of_ne _ hne]

theorem State.Sound.setHeadWork (hs : s.Sound Flight.none) (p : List Byte) : (setHeadWork p s).state.Sound Flight.none := by
  unfold Machine.setHeadWork
  dsimp only
  split
  · exact hs
  · split
    · split
      · exact hs
      · split
        · next hh => exact hs.applyConfig hh (Nat.min_le_right _ _)
        · exact hs
    · exact hs

/-! ### Notices, counters and the station -/

theorem State.Sound.setNoticesWork (hs : s.Sound k) (p : List Byte) : (setNoticesWork p s).state.Sound k := by
  unfold Machine.setNoticesWork
  split
  · exact hs
  · have enabled : (s.modNotices fun n => { n with enables := causesAt p 1 }).Sound k :=
      hs.withFlags rfl { hs.flags with }
    exact enabled.announcePending

theorem State.Sound.readStatusWork (hs : s.Sound k) (p : List Byte) : (readStatusWork p s).state.Sound k := by
  unfold Machine.readStatusWork
  split
  · exact hs
  · dsimp only [Answer.ok]
    split
    · have pending := Causes.diff_eq_empty_iff.mp hs.flags.pending
      have zero : (0 : Nat) ≤ Config.countLimit := Nat.zero_le _
      refine hs.withFlags rfl { hs.flags with pending := ?_, counters := ⟨zero, zero, zero, zero⟩ }
      rw [Causes.diff_eq_empty_iff]
      exact ⟨pending.1, pending.2.1, pending.2.2.1, fun e => by cases e⟩
    · exact hs

theorem State.Sound.setStationWork (hs : s.Sound k) (p : List Byte) : (setStationWork p s).state.Sound k := by
  unfold Machine.setStationWork
  dsimp only
  split
  · exact hs
  · split
    · exact hs
    · have addressed : (s.modRing fun r => { r with cc := byteAt p 1 }).Sound k := hs.withFlags rfl { hs.flags with }
      exact State.Sound.announcePending
        (addressed.unseen s.pending s.now s.pins s.store (u8At p 4) s.pointer (max 10 (min (u16At p 2) 1000)))

/-! ### Ring-out (R159) -/

theorem RingPort.send_drive (r : RingPort) : r.send.drive = r.drive ∨ ∃ f, r.drive = f :: r.send.drive := by
  unfold RingPort.send RingPort.choose
  rcases hd : r.drive with _ | ⟨f, fs⟩
  · refine .inl ?_
    split <;> grind
  · split <;> grind

theorem RingPort.send_keeps (r : RingPort) : r.send.forward.length ≤ r.forward.length ∧
    r.send.general.length ≤ r.general.length ∧ r.send.reserved = r.reserved ∧ r.send.counters = r.counters := by
  unfold RingPort.send RingPort.choose
  split <;> grind

theorem State.Sound.send (hs : s.Sound k) : (s.modRing RingPort.send).Sound k := by
  have hp := hs.power
  obtain ⟨forward, general, reserved, counters⟩ := s.ring.send_keeps
  have sub : s.ring.send.drive.Sublist s.ring.drive := by
    rcases s.ring.send_drive with e | ⟨f, e⟩
    · rw [e]
    · rw [e]; exact List.sublist_cons_self ..
  refine ⟨hs.heads.congr rfl (fun _ => rfl) fun _ => rfl, ⟨hp.power, hp.demands, hp.resting, hp.integrators, ?_, ?_⟩,
    { hs.cache with }, { hs.books with }, { hs.flags with forward := ?_, general := ?_, counters := ?_ }⟩
  · exact hp.drives.sublist (sub.map _)
  · exact fun f hf => hp.restingFrames f (sub.subset hf)
  · exact forward.trans hs.flags.forward
  · have := hs.flags.general
    show s.ring.send.general.length + s.ring.send.reserved.toNat ≤ _
    rw [reserved]
    omega
  · rw [State.CountersBounded, State.modRing_ring, counters]; exact hs.flags.counters

/-! ### Resets (R88, R152, R164) -/

/-- The laws of a part all of whose heads rest without work, with an empty cache and empty books. -/
structure State.Blank (s : State) : Prop where
  heads : ∀ j, s.ctxAt j = { state := (s.ctxAt j).state } ∧ ((s.ctxAt j).state = .idle ∨ (s.ctxAt j).state = .disabled)
  rows : ∀ j, s.rowAt j = {}
  intake : ∀ j, s.intakeAt j = {}
  entries : ∀ e, s.entryAt e = Entry.atReset e
  wait : s.cache.wait = []
  owed : s.cache.retryOwed = false
  carriers : s.carriers = []
  queue : s.queue = []

theorem State.Blank.sound (hb : s.Blank) (enabled : ∀ j, (s.ctxAt j).state = .disabled ↔ (s.configAt j).enable = false)
    (budget : s.budget ≤ Config.budgetLimit) (rating : ∀ j, (s.configAt j).rating ≤ Config.powerLimit)
    (drives : s.OneDriveEach) (frames : ∀ f ∈ s.ring.drive, f.source = .stop) (flags : s.FlagsSound) :
    s.Sound Flight.none := by
  have rested (j : Head) : (s.ctxAt j).state ≠ .arming ∧ (s.ctxAt j).state ≠ .heating := by
    rcases (hb.heads j).2 with e | e <;> rw [e] <;> decide
  have unbound (j : Head) : (s.ctxAt j).binding = none := by rw [(hb.heads j).1]
  have idle (j : Head) : (s.ctxAt j).current = none ∧ (s.ctxAt j).next = none ∧ (s.ctxAt j).heldRecord = none := by
    rw [(hb.heads j).1]; exact ⟨rfl, rfl, rfl⟩
  have work (j : Head) : (s.ctxAt j).assignments = [] := by
    obtain ⟨current, next, -⟩ := idle j
    rw [HeadCtx.assignments, current, next]; rfl
  refine ⟨fun j => ⟨?_, fun _ => ?_, fun _ => by rw [hb.intake], enabled j⟩,
    ⟨⟨?_, budget⟩, fun j => by rw [hb.rows], fun j _ => ⟨hb.rows j, fun i c hc => by rw [hb.rows] at hc; cases hc⟩,
      fun j => ⟨?_, rating j, fun _ => ?_⟩, drives, fun f hf _ => frames f hf⟩,
    { recency := ⟨fun e => ?_, fun e f => ?_⟩
      oneMatch := fun c e f he _ => by rw [hb.entries] at he; cases he
      users := fun e => by rw [hb.entries]; simp [State.boundHeads, unbound, Entry.atReset]
      bindings := fun j b hj => by rw [unbound] at hj; cases hj
      waiters := ⟨by rw [hb.wait]; exact .nil, fun w hw => by rw [hb.wait] at hw; cases hw⟩
      descriptors := fun e => by rw [hb.entries]; exact trivial
      noVictim := fun hw => absurd hb.wait hw
      owes := fun ho => by rw [hb.owed] at ho; cases ho
      placed := fun j hj => absurd hj (rested j).1
      requirements := fun j hj => absurd hj (rested j).1
      running := fun j hj => absurd hj (rested j).2 },
    { carriers := by rw [State.CarriersDistinct, hb.carriers]; exact ⟨by decide, .nil⟩
      named := fun j => by rw [work]; exact ⟨.nil, fun a ha => by cases ha⟩
      accounts := fun c hc => by rw [hb.carriers] at hc; cases hc
      closing := ⟨fun c hc => (by rw [hb.carriers] at hc; cases hc), fun j r hr => by rw [(idle j).2.2] at hr; cases hr⟩
      queue := by rw [State.QueueBounded, hb.queue]; exact Nat.zero_le _
      waiting := fun hw => by simp [State.recordsWaiting, (idle _).2.2, hb.carriers] at hw },
    flags⟩
  · show HeadCtx.Shaped _
    rw [(hb.heads j).1]
    rcases (hb.heads j).2 with e | e <;> rw [e] <;> exact ⟨rfl, rfl, rfl, rfl, rfl, rfl⟩
  · rw [(hb.heads j).1]; exact ⟨rfl, rfl, rfl, rfl, rfl, rfl⟩
  · have : s.grantSum = 0 := by simp [State.grantSum, hb.rows]
    rw [this]; exact Nat.zero_le _
  · rw [(hb.heads j).1]; exact Nat.zero_le _
  · rw [(hb.heads j).1]; exact ⟨rfl, rfl⟩
  · rw [hb.entries]; exact e.isLt
  · rw [hb.entries, hb.entries]; exact Fin.ext

/-- The flags of a part whose conditions are all absent. -/
theorem State.Blank.flags (hb : s.Blank) (detected : s.notices.detected = {}) (pending : s.notices.pending = {})
    (forward : s.ring.forward.length ≤ Config.forwardCapacity)
    (general : s.ring.general.length + s.ring.reserved.toNat ≤ Config.generalCapacity) (counters : s.ring.counters = {}) :
    s.FlagsSound := by
  have zero : (0 : Nat) ≤ Config.countLimit := Nat.zero_le _
  refine ⟨.inr ?_, .inr ?_, .inr ?_, by rw [pending, detected]; rfl, forward, general, ?_⟩
  · rw [detected, State.recordsPresent, hb.queue]; rfl
  · rw [detected, State.faultPresent]
    refine (List.any_eq_false.mpr fun j _ => ?_).symm
    rcases (hb.heads j).2 with e | e <;> rw [e] <;> decide
  · rw [detected, State.claimPresent]
    exact (List.any_eq_false.mpr fun j _ => by rw [hb.rows]; decide).symm
  · rw [State.CountersBounded, counters]; exact ⟨zero, zero, zero, zero⟩

theorem State.blank_deviceReset (s : State) : s.deviceReset.Blank where
  heads j := by simp [State.deviceReset, State.reset, State.ctxAt]
  rows j := by simp [State.deviceReset, State.reset, State.rowAt]
  intake j := by simp [State.deviceReset, State.reset, State.intakeAt]
  entries e := by simp [State.deviceReset, State.reset, State.entryAt]
  wait := rfl
  owed := rfl
  carriers := rfl
  queue := rfl

/-- The laws hold while device reset holds, and of what its end makes of them (R88, R152). -/
theorem State.sound_deviceReset (s : State) (interlock : Bool) (own : Byte) (held : Bool) (pins : Pins) :
    ({ s.deviceReset with resetHeld := held, pins, interlock, ring := { s.deviceReset.ring with own } } : State).Sound
      Flight.none := by
  have blank : ({ s.deviceReset with resetHeld := held, pins, interlock, ring := { s.deviceReset.ring with own } } : State).Blank :=
    { s.blank_deviceReset with }
  have config (j : Head) : s.deviceReset.configAt j = {} := by simp [State.deviceReset, State.reset, State.configAt]
  have ctx (j : Head) : s.deviceReset.ctxAt j = {} := by simp [State.deviceReset, State.reset, State.ctxAt]
  refine blank.sound (fun j => ?_) (Nat.zero_le _) (fun j => ?_) .nil (fun f hf => by cases hf)
    (blank.flags rfl rfl (Nat.zero_le _) (Nat.zero_le _) rfl)
  · show (s.deviceReset.ctxAt j).state = _ ↔ (s.deviceReset.configAt j).enable = _
    rw [ctx, config]
    exact ⟨fun _ => rfl, fun _ => rfl⟩
  · show (s.deviceReset.configAt j).rating ≤ _
    rw [config]; exact Nat.zero_le _

theorem placeStops_ring (hs : List Head) (s : State) : (placeStops hs s).base = s.base ∧
    (placeStops hs s).ring = { s.ring with drive := (placeStops hs s).ring.drive } ∧
    (placeStops hs s).notices = s.notices ∧ (placeStops hs s).cache = s.cache := by
  induction hs generalizing s with
  | nil => exact ⟨rfl, rfl, rfl, rfl⟩
  | cons h hs ih => exact ih _

/-- After the STOP frames of the HEATING heads every waiting frame is a STOP (R164). -/
theorem placeStops_drive {hs : List Head} (hn : (s.ring.drive.map DriveFrame.head).Nodup)
    (hd : ∀ f ∈ s.ring.drive, f.head ∉ hs → f.source = .stop) :
    ((placeStops hs s).ring.drive.map DriveFrame.head).Nodup ∧ ∀ f ∈ (placeStops hs s).ring.drive, f.source = .stop := by
  induction hs generalizing s with
  | nil => exact ⟨hn, fun f hf => hd f hf List.not_mem_nil⟩
  | cons h hs ih =>
    refine ih (placeIn_nodup hn _) fun f hf hh => ?_
    by_cases hne : f.head = h
    · exact mem_placeIn_own hn hf hne
    · refine hd f ?_ (by simp [hne, hh])
      have : f ∈ (placeIn s.ring.drive (s.stopFrame h (s.runningKind h = some .feed))).filter fun x =>
          x.head ≠ (s.stopFrame h (s.runningKind h = some .feed)).head := List.mem_filter.mpr ⟨hf, by simp [State.stopFrame, hne]⟩
      rw [placeIn_others] at this
      exact (List.mem_filter.mp this).1

theorem State.Sound.stationReset (hs : s.Sound k) : s.stationReset.Sound Flight.none := by
  obtain ⟨base, ring, notices, cache⟩ := placeStops_ring (allHeads.filter fun h => (s.ctxAt h).state = .heating) s
  obtain ⟨nodup, stops⟩ := placeStops_drive (s := s) (hs := allHeads.filter fun h => (s.ctxAt h).state = .heating)
    hs.power.drives fun f hf hh => hs.power.restingFrames f hf fun e => hh (List.mem_filter.mpr ⟨mem_allHeads _, by simpa using e⟩)
  unfold State.stationReset
  generalize placeStops (allHeads.filter fun h => (s.ctxAt h).state = .heating) s = u at *
  have config (j : Head) : u.configAt j = s.configAt j := State.config_of_base base j
  have ctx (j : Head) : u.stationValues.ctxAt j = HeadCtx.stationReset (u.configAt j) := by
    simp [State.stationValues, State.ctxAt]
  have blank : u.stationValues.Blank :=
    { heads := fun j => by rw [ctx]; unfold HeadCtx.stationReset; cases (u.configAt j).enable <;> simp
      rows := fun j => by simp [State.stationValues, State.reset, State.rowAt]
      intake := fun j => by simp [State.stationValues, State.reset, State.intakeAt]
      entries := fun e => by simp [State.stationValues, State.reset, State.entryAt]
      wait := rfl, owed := rfl, carriers := rfl, queue := rfl }
  refine blank.sound (fun j => ?_) ?_ (fun j => ?_) nodup stops (blank.flags rfl rfl ?_ ?_ rfl)
  · rw [ctx]
    show (if (u.configAt j).enable then HeadState.idle else .disabled) = _ ↔ (u.configAt j).enable = false
    cases (u.configAt j).enable <;> decide
  · exact (State.budget_of_base base).le.trans hs.power.power.2
  · show (u.configAt j).rating ≤ _
    rw [config]; exact (hs.power.integrators j).2.1
  · show u.ring.forward.length ≤ _
    rw [ring]; exact hs.flags.forward
  · show 0 + u.ring.reserved.toNat ≤ _
    rw [Nat.zero_add]
    exact (Bool.toNat_le _).trans (by decide)

end Sys2Proof.Machine
end

section
/-! The tick keeps the laws (R4, R31, R58, R68, R95). -/

namespace Sys2Proof.Machine

variable {s t : State} {k : Flight}

/-! ### A cache entry after one millisecond -/

theorem Entry.elapse_users (x : Entry) : x.elapse.users = x.users ∧ x.elapse.recency = x.recency := by
  unfold Entry.elapse; split <;> exact ⟨rfl, rfl⟩

theorem Entry.elapse_matchesId (x : Entry) (c : ClassId) : x.elapse.body.matchesId c = x.body.matchesId c := by
  unfold Entry.elapse
  split
  · next e => rw [e]; rfl
  · rfl

theorem Entry.elapse_idle (x : Entry) : x.elapse.idle = x.idle := by
  unfold Entry.elapse
  split
  · next e => simp only [Entry.idle, e]; rfl
  · rfl

theorem Entry.elapse_desc (x : Entry) : x.elapse.body.desc? = x.body.desc? := by
  unfold Entry.elapse
  split
  · next e => rw [e]; rfl
  · rfl

theorem Binding.fits_elapse {b : Binding} {x : Entry} {c : ClassId} : b.Fits x.elapse.body c ↔ b.Fits x.body c := by
  unfold Entry.elapse
  split
  · next e => rw [e]; rfl
  · rfl

theorem Entry.elapse_clamped {x : Entry} : x.elapse.body.DescClamped ↔ x.body.DescClamped := by
  unfold Entry.elapse
  split
  · next e => rw [e]; rfl
  · rfl

/-! ### The whole part after one millisecond -/

theorem HeadCtx.elapse_view {α : Type} (v : HeadCtx → α)
    (hv : ∀ (c : HeadCtx) (n : Nat) (st : Option Nat) (se : Option Nat),
      v { c with settle := se, stepTimer := st, stepClock := n } = v c) (c : HeadCtx) : v c.elapse = v c := by
  unfold HeadCtx.elapse
  split
  · exact hv c _ _ _
  · exact hv c c.stepClock c.stepTimer _

theorem State.Sound.elapse (hs : s.Sound k) : s.elapse.Sound k := by
  have ctx (j : Head) : s.elapse.ctxAt j = (s.ctxAt j).elapse := by simp [State.elapse, State.ctxAt]
  have intake (j : Head) : (s.elapse.intakeAt j).staleTimer = countDown (s.intakeAt j).staleTimer := by
    simp [State.elapse, State.intakeAt]
  have entry (e : EntryIx) : s.elapse.entryAt e = (s.entryAt e).elapse := by simp [State.elapse, State.entryAt]
  have view {α : Type} (v : HeadCtx → α)
      (hv : ∀ (c : HeadCtx) (n : Nat) (st : Option Nat) (se : Option Nat),
        v { c with settle := se, stepTimer := st, stepClock := n } = v c) (j : Head) : v (s.elapse.ctxAt j) = v (s.ctxAt j) := by
    rw [ctx]; exact HeadCtx.elapse_view v hv _
  have state := view HeadCtx.state fun _ _ _ _ => rfl
  have settled (j : Head) : (s.elapse.ctxAt j).settle.isNone = (s.ctxAt j).settle.isNone := by
    rw [ctx]; unfold HeadCtx.elapse
    split <;> exact Option.isNone_map ..
  have current := view HeadCtx.current fun _ _ _ _ => rfl
  have binding := view HeadCtx.binding fun _ _ _ _ => rfl
  have desc (j : Head) : s.elapse.boundDesc j = s.boundDesc j := by
    unfold State.boundDesc
    rw [binding]
    exact Option.bind_congr fun b _ => by rw [entry, Entry.elapse_desc]
  have cs := hs.cache
  refine ⟨fun j => ?_, ?_,
    { recency := ?_, oneMatch := ?_, users := ?_
      bindings := fun j b hb => ?_
      waiters := ?_
      descriptors := fun e => by rw [entry, Entry.elapse_clamped]; exact cs.descriptors e
      noVictim := fun hw => (cs.noVictim hw).imp_left fun h e => by rw [entry, Entry.elapse_idle]; exact h e
      owes := cs.owes
      placed := fun j hj hm => by rw [state] at hj; rw [binding]; exact cs.placed j hj hm
      requirements := fun j hj hm c hc => ?_
      running := fun j hj hm => ?_ },
    hs.books.congr rfl rfl (view HeadCtx.work fun _ _ _ _ => rfl),
    hs.flags.congr rfl rfl (State.faultPresent_congr fun j => by rw [state]) (State.claimPresent_congr fun _ => rfl)
      rfl rfl rfl rfl⟩
  · have ok := hs.heads j
    have untimed {c : HeadCtx} (hc : c.state ≠ .heating) : c.elapse = { c with settle := countDown c.settle } := by
      rw [HeadCtx.elapse, if_neg hc]
    refine ⟨?_, fun hj => ?_, fun hj => ?_, ?_⟩
    · rw [view (fun c => c.ShapedAs (k.mode j)) fun c _ _ _ => by cases k.mode j <;> rfl]
      exact ok.shaped
    · rw [state] at hj
      rw [ctx, untimed hj]
      exact ok.rested hj
    · rw [state] at hj
      rw [intake, ok.unwatched hj]
      rfl
    · rw [state]; exact ok.enabled
  · have hp := hs.power
    refine ⟨hp.power, hp.demands, fun j hj => ?_, fun j => ?_, hp.drives, fun f hf hj => ?_⟩
    · rw [state] at hj; exact hp.resting j hj
    · obtain ⟨h1, h2, h3⟩ := hp.integrators j
      rw [state, view HeadCtx.iAcc fun _ _ _ _ => rfl, view HeadCtx.limited fun _ _ _ _ => rfl]
      exact ⟨h1, h2, h3⟩
    · rw [state] at hj; exact hp.restingFrames f hf hj
  · simpa only [State.RecencyPermutation, entry, (Entry.elapse_users _).2] using cs.recency
  · simpa only [State.OneMatch, entry, Entry.elapse_matchesId] using cs.oneMatch
  · simpa only [State.UsersAreBound, entry, (Entry.elapse_users _).1, State.boundHeads_congr binding] using cs.users
  · rw [binding] at hb
    rw [entry, Binding.fits_elapse, State.requestedId_congr (current j)]
    exact cs.bindings j b hb
  · exact ⟨cs.waiters.1, fun w hw => by rw [state, binding, current]; exact cs.waiters.2 w hw⟩
  · rw [state] at hj
    rw [current] at hc
    rw [view HeadCtx.reqs fun _ _ _ _ => rfl, desc,
      State.requirementsFor_congr (s := s) (t := s.elapse) rfl rfl (settled j)]
    exact cs.requirements j hj hm c hc
  · rw [state] at hj
    rw [State.runningStep_congr (s := s) (view HeadCtx.step (fun _ _ _ _ => rfl) j) (desc j)]
    exact cs.running j hj hm

theorem State.Sound.tick (hs : s.Sound k) : s.tick.Sound k :=
  hs.elapse.unseen (s.elapse.pending ++ orderByRank s.elapse.now s.elapse.expiries) s.elapse.now s.elapse.pins
    s.elapse.store s.elapse.minStrength s.elapse.pointer s.elapse.cache.fetchLimit

end Sys2Proof.Machine
end

section
/-! Every command keeps the laws of the part. -/

namespace Sys2Proof.Machine

variable {s t : State}

theorem State.resetHeld_of_base (h : t.base = s.base) : t.resetHeld = s.resetHeld := congrArg Base.resetHeld h

/-- The termination of a cycle with nothing in flight. -/
theorem State.Sound.terminateOne (hs : s.Sound Flight.none) {h : Head} (hh : (s.ctxAt h).state = .heating) (e : Ending) :
    (s.terminate h e).Sound Flight.none := by
  have := hs.terminate hh (fun j => by simp) e
  rwa [Flight.put_plain rfl, Flight.paid_of rfl] at this

/-! ### The requests -/

theorem State.Sound.flushClassWork (hs : s.Sound Flight.none) (p : List Byte) :
    (flushClassWork p s).state.Sound Flight.none := by
  have flush (es : List EntryIx) : (s.flush es).state.Sound Flight.none := hs.flush rfl (fun j => by simp) es
  unfold Machine.flushClassWork
  split
  · exact hs
  · split
    · exact flush _
    · exact flush _
    · exact hs

theorem State.Sound.releaseWork (hs : s.Sound Flight.none) (p : List Byte) : (releaseWork p s).state.Sound Flight.none := by
  unfold Machine.releaseWork
  split
  · exact hs
  · split
    · exact hs
    · split
      · exact hs
      · rw [Answer.ok_state]; exact hs.releaseCarrier rfl (fun j => by simp) _

theorem State.Sound.haltWork (hs : s.Sound Flight.none) (p : List Byte) : (haltWork p s).state.Sound Flight.none := by
  have one (h : Head) (drop : Bool) : (s.haltOne h drop).Sound Flight.none := hs.haltOne rfl (fun _ => rfl) h drop
  have all (drop : Bool) : (Machine.haltHeads drop allHeads s).state.Sound Flight.none := hs.haltHeads rfl (fun _ => rfl) drop _
  unfold Machine.haltWork
  dsimp only
  split
  · exact hs
  · split
    · rw [Answer.ok_state]; exact one _ _
    · split
      · rw [Answer.ok_state]; exact (all _).closeCarriers
      · exact hs

theorem State.Sound.clearFaultWork (hs : s.Sound Flight.none) (p : List Byte) :
    (clearFaultWork p s).state.Sound Flight.none := by
  unfold Machine.clearFaultWork
  split
  · exact hs
  · split
    · dsimp only
      split
      · next hh => exact (hs.clearFault rfl (fun _ => rfl) hh).startsDone rfl fun j => by simp
      · exact hs
    · exact hs

theorem State.Sound.readRecordsWork (hs : s.Sound Flight.none) (p : List Byte) :
    (readRecordsWork p s).state.Sound Flight.none := by
  unfold Machine.readRecordsWork
  dsimp only
  split
  · exact hs
  · split
    · exact hs
    · exact hs.takeRecords _

theorem readClassWork_state (p : List Byte) (s : State) : (readClassWork p s).state = s := by
  unfold readClassWork
  split
  · rfl
  · split
    · split <;> rfl
    · rfl
    · rfl

theorem State.Working.resetStationWork {b : Bool} (hs : s.Working b) (p : List Byte) : (resetStationWork p s).state.Working b := by
  refine ⟨?_, (resetStationWork_reserved s p).trans hs.reserved, ?_⟩
  · unfold Machine.resetStationWork
    split
    · exact hs.sound
    · exact hs.sound.stationReset
  · unfold Machine.resetStationWork
    split
    · exact hs.free
    · exact (State.resetHeld_of_base (placeStops_base s _) :).trans hs.free

theorem State.Working.setBudgetWork {b : Bool} (hs : s.Working b) (p : List Byte) : (setBudgetWork p s).state.Working b := by
  refine ⟨?_, (setBudgetWork_reserved s p).trans hs.reserved, ?_⟩
  · unfold Machine.setBudgetWork
    split
    · exact hs.sound
    · dsimp only
      rw [Answer.ok_state]
      exact hs.sound.applyBudget (Nat.min_le_right _ _)
  · unfold Machine.setBudgetWork State.applyBudget
    split
    · exact hs.free
    · dsimp only [Answer.ok]
      split
      · exact (State.resetHeld_of_base (placeCutFrames_base _ _)).trans hs.free
      · exact hs.free

theorem State.Working.setHeadWork {b : Bool} (hs : s.Working b) (p : List Byte) : (setHeadWork p s).state.Working b := by
  have kept : (Machine.setHeadWork p s).state.ring = s.ring ∧ (Machine.setHeadWork p s).state.resetHeld = s.resetHeld := by
    unfold Machine.setHeadWork
    dsimp only
    split
    · exact ⟨rfl, rfl⟩
    · split
      · split
        · exact ⟨rfl, rfl⟩
        · split <;> exact ⟨rfl, rfl⟩
      · exact ⟨rfl, rfl⟩
  exact ⟨hs.sound.setHeadWork p, by rw [kept.1]; exact hs.reserved, kept.2.trans hs.free⟩

theorem State.Working.setStationWork {b : Bool} (hs : s.Working b) (p : List Byte) : (setStationWork p s).state.Working b := by
  refine ⟨hs.sound.setStationWork p, (setStationWork_reserved s p).trans hs.reserved, ?_⟩
  unfold Machine.setStationWork
  dsimp only
  split
  · exact hs.free
  · split
    · exact hs.free
    · exact (State.resetHeld_of_base (State.announcePending_base _)).trans hs.free

theorem State.Working.writeStepsWork {b : Bool} (hs : s.Working b) (p : List Byte) : (writeStepsWork p s).state.Working b := by
  unfold Machine.writeStepsWork
  dsimp only
  split
  · exact hs
  · split
    · exact hs
    · split
      · exact hs
      · exact ⟨hs.sound.unseen s.pending s.now s.pins _ s.minStrength s.pointer s.cache.fetchLimit, hs.reserved, hs.free⟩

theorem State.Working.readStatusWork {b : Bool} (hs : s.Working b) (p : List Byte) : (readStatusWork p s).state.Working b := by
  refine hs.keep (hs.sound.readStatusWork p) ?_ (readStatusWork_base s p)
  unfold Machine.readStatusWork
  split
  · rfl
  · dsimp only [Answer.ok]
    split <;> rfl

/-! ### The rows a frame can spell -/

/-- A row that some frame spells. -/
def framed : Instr → Bool
  | .frameArrival _ | .ringOutSend | .interlockOpening | .interlockClosing | .deviceReset | .deviceResetEnd _ _
  | .stalenessExpiry _ | .dwellExpiry _ | .stepTimeout _ | .fetchTimerExpiry _ | .settleTimerExpiry _ | .service => false
  | _ => true

theorem commandOf_framed {f : Frame} {c : Instr} (hf : commandOf f = some c) : framed c = true := by
  have request (src tag : Byte) (p : List Byte) : framed (requestOf src tag p) = true := by
    unfold requestOf
    split
    · rfl
    · split <;> rfl
  have purge (src : Byte) (p : List Byte) : ∀ i ∈ purgeOf src p, framed i = true := by
    unfold purgeOf
    intro i hi
    split at hi
    · split at hi <;> cases hi <;> rfl
    · cases hi
  unfold commandOf at hf
  split at hf
  case h_7 => exact purge _ _ c hf
  all_goals cases hf
  · exact request ..
  all_goals rfl

/-- A row that a frame spells is its own command. -/
theorem exec_of_framed {c : Instr} (hc : framed c = true) (s : State) : exec c s = takeRow c s := by
  cases c <;> first | rfl | cases hc

theorem State.Working.taken {f : State → State} (hs : s.Working false) (hf : (f s).Calm) (h : takes f s = .next t) :
    t.Calm := by
  rw [takes_free hs.free] at h
  cases h
  exact hf

theorem State.Working.unanswered {src : Byte} {work : State → State} (hs : s.Working false)
    (hw : (work s).Working false) (h : Machine.unanswered src work s = .next t) : t.Calm :=
  hs.taken (hs.consumed (work := fun s => (work s).report) hw.report) h

theorem State.Working.request {code : Nat} {src tag : Byte} {body : List Byte} {work : List Byte → State → Answer}
    (hs : s.Working false) (hw : ∀ p, s.reserving.Working true → (work p s.reserving).state.Working true)
    (h : Machine.request code src tag body work s = .next t) : t.Calm := hs.taken (hs.answered (hw _)) h

/-- The commands that a frame spells keep the laws. -/
theorem State.Working.takeRow {c : Instr} (hs : s.Working false) (hc : framed c = true) (h : takeRow c s = .next t) :
    t.Calm := by
  cases c
  case identify => exact hs.request (fun p hr => by rw [identifyWork_state]; exact hr) h
  case setStation => exact hs.request (fun p hr => hr.setStationWork p) h
  case setBudget => exact hs.request (fun p hr => hr.setBudgetWork p) h
  case setHead => exact hs.request (fun p hr => hr.setHeadWork p) h
  case readHead => exact hs.request (fun p hr => by rw [readHeadWork_state]; exact hr) h
  case writeSteps => exact hs.request (fun p hr => hr.writeStepsWork p) h
  case readSteps => exact hs.request (fun p hr => by rw [readStepsWork_state]; exact hr) h
  case readClass => exact hs.request (fun p hr => by rw [readClassWork_state]; exact hr) h
  case flushClass =>
    exact hs.request (fun p hr => hr.keep (hr.sound.flushClassWork p) (flushClassWork_reserved _ p) (flushClassWork_base _ p)) h
  case halt =>
    exact hs.request (fun p hr => hr.keep (hr.sound.haltWork p) (haltWork_reserved _ p) (haltWork_base _ p)) h
  case clearFault =>
    exact hs.request (fun p hr => hr.keep (hr.sound.clearFaultWork p) (clearFaultWork_reserved _ p) (clearFaultWork_base _ p)) h
  case readRecords =>
    exact hs.request (fun p hr => hr.keep (hr.sound.readRecordsWork p) (readRecordsWork_reserved _ p) (readRecordsWork_base _ p)) h
  case setNotices =>
    exact hs.request (fun p hr => hr.keep (hr.sound.setNoticesWork p) (setNoticesWork_reserved _ p) (setNoticesWork_base _ p)) h
  case readStatus => exact hs.request (fun p hr => hr.readStatusWork p) h
  case resetStation => exact hs.request (fun p hr => hr.resetStationWork p) h
  case unknownRequest src tag payload =>
    replace h : execUnknownRequest src tag payload s = .next t := h
    unfold execUnknownRequest at h
    split at h
    · exact hs.taken (hs.answered id) h
    · cases h
  case carrier src tag p =>
    exact hs.taken (hs.answered fun hr =>
      hr.keep (hr.sound.carrierWork p) (carrierWork_reserved _ p) (carrierWork_base _ p)) h
  case release src tag p =>
    exact hs.taken (hs.answered fun hr =>
      hr.keep (hr.sound.releaseWork p) (releaseWork_reserved _ p) (releaseWork_base _ p)) h
  case classload src tag p =>
    exact hs.taken (hs.answered fun hr =>
      hr.keep (hr.sound.classloadWork p) (classloadWork_reserved _ p) (classloadWork_base _ p)) h
  case sample src p =>
    refine hs.unanswered (hs.keep (hs.sound.takeSample src p) ?_ (s.takeSample_base src p)) h
    unfold State.takeSample State.acceptSample
    dsimp only
    split
    · split
      · rfl
      · split <;> rfl
    · exact s.raise_reserved _ _
  case dstat src p =>
    refine hs.unanswered (hs.keep (hs.sound.takeDstat src p) ?_ (s.takeDstat_base src p)) h
    have energy (i : Head) (n : Nat) : (s.accountEnergy i n).port = s.port := by
      unfold State.accountEnergy; split <;> rfl
    have counter (u : State) (i : Head) (n : Byte) : (u.takeFeedCounter i n).port = u.port := by
      unfold State.takeFeedCounter Progress.conclude
      dsimp only
      split
      · split
        · rfl
        · split
          · rfl
          · split <;> simp
      · rfl
    unfold State.takeDstat State.acceptDstat
    split
    · refine State.reserved_of_port ?_
      dsimp only
      split
      · rw [State.conclude_port, counter, State.driveFault_port, energy]
      · rw [counter, energy]
    · exact s.raise_reserved _ _
  case purgeOk src id =>
    refine hs.unanswered (hs.keep ?_ ?_ (s.purgeOk_base id)) h
    · unfold State.purgeOk
      split
      · exact (hs.sound.setPurge id .ok).startsDone rfl fun j => by simp
      · exact hs.sound.raiseForeign
    · unfold State.purgeOk
      split
      · exact State.reserved_of_port (by simp [State.setPurge])
      · exact s.raise_reserved _ _
  case purgeLost src id =>
    have ended (o : CycleOutcome) (l : List Head) (u : State) : (endCycles o l u).port = u.port := by
      induction l generalizing u with
      | nil => rfl
      | cons h l ih => simp [endCycles, ih]
    refine hs.unanswered (hs.keep ?_ ?_ (s.purgeLost_base id)) h
    · unfold State.purgeLost
      split
      · exact ((hs.sound.setPurge id .lost).endCycles rfl (fun _ => rfl) (allHeads_nodup.filter _)
          (State.heatingOf_heating _ id) _).closeCarriers
      · exact hs.sound.raiseForeign
    · unfold State.purgeLost
      split
      · exact State.reserved_of_port (by rw [State.closeCarriers_port, ended]; rfl)
      · exact s.raise_reserved _ _
  all_goals cases hc

theorem State.Working.consume {f : Frame} (hs : s.Working false) (h : consume f s = .next t) : t.Calm := by
  unfold Machine.consume at h
  split at h
  · next c hf => exact hs.takeRow (commandOf_framed hf) h
  · exact hs.taken (hs.raise hs.sound.raiseForeign).report h

/-! ### The events -/

theorem State.Working.event {work : State → State} (hs : s.Working false) (sound : (work s).Sound Flight.none)
    (port : (work s).port = s.port) (held : (work s).resetHeld = s.resetHeld) (h : Machine.event work s = .next t) : t.Calm :=
  hs.taken (f := fun s => (work s).report)
    (State.Working.report ⟨sound, (State.reserved_of_port port).trans hs.reserved, held.trans hs.free⟩) h

theorem State.endCycles_port (o : CycleOutcome) (l : List Head) (s : State) : (endCycles o l s).port = s.port := by
  induction l generalizing s with
  | nil => rfl
  | cons h l ih => simp [endCycles, ih]

theorem State.setInterlock_free (s : State) (closed : Bool) : (s.setInterlock closed).resetHeld = s.resetHeld := rfl

theorem State.openInterlock_free (s : State) : s.openInterlock.resetHeld = s.resetHeld := by
  have kept : s.openInterlock.base = (s.setInterlock false).base := by
    rw [State.openInterlock, State.closeCarriers_base, endCycles_base]
  exact (State.resetHeld_of_base kept).trans (s.setInterlock_free false)

theorem State.closeInterlock_free (s : State) : s.closeInterlock.resetHeld = s.resetHeld := by
  have kept : s.closeInterlock.base = (s.setInterlock true).base := by
    rw [State.closeInterlock, State.startsDone_base]
  exact (State.resetHeld_of_base kept).trans (s.setInterlock_free true)

theorem State.setInterlock_port (s : State) (closed : Bool) : (s.setInterlock closed).port = s.port := by
  rw [State.setInterlock, State.mapReqs_port]
  unfold State.port
  rfl

theorem State.serveHead_port (s : State) (h : Head) (tm : Nat) : (s.serveHead h tm).port = s.port := by
  have driven (u : State) (kd : Kind) (w : StepWord) (d : ClassDesc) : (u.driveHead h kd w d tm).port = u.port := by
    rw [State.driveHead, State.modCtx_port, State.grantService_port]
  have served (w : StepWord) (kd : Kind) (d : ClassDesc) : (s.serveStep h kd w d tm).state.port = s.port := by
    unfold State.serveStep
    split
    · rfl
    · dsimp only
      split
      · rw [State.takeEndEvent_port, driven]; rfl
      · exact (driven _ _ _ _).trans rfl
  unfold State.serveHead Progress.conclude
  split
  · split
    · split <;> simp [served]
    · rfl
  all_goals rfl

/-- The commands that no frame spells keep the laws while the part takes events. -/
theorem State.Calm.exec {c : Instr} (hs : s.Calm) (h : exec c s = .next t) (hr : c ≠ .deviceReset) : t.Calm := by
  have work := hs.toWorking
  have sound := work.sound
  have away (j : Head) : Flight.none.mode j ≠ .homeless := by simp
  have ilk (level : Bool) : (s.setIlk level).Working false :=
    ⟨sound.unseen s.pending s.now { s.pins with ilk := level } s.store s.minStrength s.pointer s.cache.fetchLimit,
      work.reserved, work.free⟩
  have held {u : State} (e : u.base = s.base) : u.resetHeld = s.resetHeld := State.resetHeld_of_base e
  by_cases hf : framed c = true
  · rw [exec_of_framed hf] at h
    exact work.takeRow hf h
  cases c
  case deviceReset => exact absurd rfl hr
  case frameArrival bytes =>
    replace h : execFrameArrival bytes s = .next t := h
    unfold execFrameArrival at h
    split at h
    · exact work.taken (f := fun s => s.raiseCrc.report) (work.raise sound.raiseCrc).report h
    · cases h; exact hs
    · exact work.consume h
    · split at h
      · rw [State.live, if_neg (by simp [work.free])] at h
        exact (work.offerForward bytes).consume h
      · exact work.taken (f := fun s => (s.offerForward bytes).report) (work.offerForward bytes).report h
    · exact work.taken (f := fun s => (s.offerForward bytes).report) (work.offerForward bytes).report h
  case ringOutSend =>
    refine work.taken (f := fun s => s.modRing RingPort.send) ?_ h
    exact ⟨⟨sound.send, s.ring.send_keeps.2.2.1.trans work.reserved, work.free⟩, hs.reported⟩
  case interlockOpening =>
    have w := ilk false
    refine w.event (work := State.openInterlock) (w.sound.openInterlock rfl fun _ => rfl) ?_ ?_ h
    · rw [State.openInterlock, State.closeCarriers_port, State.endCycles_port, State.setInterlock_port]
    · exact State.openInterlock_free _
  case interlockClosing =>
    have w := ilk true
    refine w.event (work := State.closeInterlock) (w.sound.closeInterlock rfl fun _ => rfl) ?_ ?_ h
    · rw [State.closeInterlock, State.startsDone_port, State.setInterlock_port]
    · exact State.closeInterlock_free _
  case deviceResetEnd strap level =>
    replace h : execDeviceResetEnd strap level s = .next t := h
    rw [execDeviceResetEnd, if_neg (by simp [work.free])] at h
    cases h; exact hs
  case stalenessExpiry i =>
    refine work.event ?_ ?_ (held ?_) h
    · split
      · next due => exact (sound.terminateOne due.1 _).conclude rfl away
      · exact sound
    · split <;> simp
    · split <;> simp
  case dwellExpiry i =>
    refine work.event ?_ ?_ (held ?_) h
    · split
      · next due =>
        exact (sound.endEvent due.1 rfl 1026).concludeProgress rfl away rfl ((endEvent_state ..).trans due.1)
      · exact sound
    · split
      · unfold Progress.conclude
        split <;> simp
      · rfl
    · split <;> simp
  case stepTimeout i =>
    refine work.event ?_ ?_ (held ?_) h
    · split
      · next due =>
        split
        · exact (sound.terminateOne due.1 _).conclude rfl away
        · exact sound
      · exact sound
    · split
      · split <;> simp
      · rfl
    · split
      · split <;> simp
      · rfl
  case settleTimerExpiry i =>
    refine work.event ?_ ?_ (held ?_) h
    · split
      · exact (sound.settleDone i rfl).startsDone rfl away
      · exact sound
    · split
      · rw [State.closeCarriers_port, State.startReady_port]; rfl
      · rfl
    · split
      · rw [State.closeCarriers_base, State.startReady_base]; rfl
      · rfl
  case fetchTimerExpiry e =>
    have dropped (l : List Head) (u : State) : (dropBindings l u).port = u.port := by
      induction l generalizing u with
      | nil => rfl
      | cons h l ih => simp [dropBindings, ih]
    have faulted (l : List Head) (u : State) : (faultUnavailable l u).port = u.port := by
      induction l generalizing u with
      | nil => rfl
      | cons h l ih => simp [faultUnavailable, ih, State.classUnavailable]
    refine work.event ?_ ?_ (held ?_) h
    · split
      · next body => exact sound.expireFetch body
      · exact sound
    · split
      · simp [State.expireFetch, faulted, dropped]
      · rfl
    · split <;> simp
  case service =>
    refine work.event sound.takeService ?_ ?_ h
    · unfold State.takeService
      split
      · rfl
      · rw [State.serveHead_port]; rfl
    · unfold State.takeService
      split
      · rfl
      · exact (State.resetHeld_of_base (State.serveHead_base ..)).trans rfl
  all_goals exact absurd rfl hf

/-- Every command keeps the laws. -/
theorem exec_lawful {c : Instr} (hs : s.Lawful) (h : exec c s = .next t) : t.Lawful := by
  have store := exec_storeSound hs.store h
  by_cases hr : c = .deviceReset
  · subst hr
    cases h
    exact (State.sound_deviceReset s s.interlock s.ring.own true s.pins).lawful store (fun _ => rfl) rfl rfl
  · cases hh : s.resetHeld with
    | false => exact ((hs.calm hh).exec h hr).lawful store
    | true =>
      have reset := hs.resetHolds hh
      have pins (level : Bool) : (s.setIlk level).Lawful :=
        { hs with resetHolds := fun _ => congrArg (fun u : State => u.setIlk level) reset }
      have still {u : State} (hu : u.Lawful) (e : Machine.exec c s = .next u) : t.Lawful := by
        rw [e] at h; cases h; exact hu
      cases c
      case deviceReset => exact absurd rfl hr
      case deviceResetEnd strap level =>
        have sound := State.sound_deviceReset s level (strapAddress strap) false { ilk := level, strap }
        rw [reset] at sound
        have ended : Machine.exec (.deviceResetEnd strap level) s = .next (s.endReset strap level) :=
          congrArg Host.Outcome.next (if_pos hh)
        rw [ended] at h
        cases h
        exact sound.lawful store (fun hr => by cases hr) hs.quiet.1 hs.quiet.2.1
      case frameArrival bytes => exact still hs (execFrameArrival_held hh bytes)
      case unknownRequest src tag payload =>
        replace h : execUnknownRequest src tag payload s = .next t := h
        unfold execUnknownRequest at h
        split at h
        · rw [takes_held hh] at h; cases h; exact hs
        · cases h
      case interlockOpening => exact still (pins false) (takes_held (s := s.setIlk false) hh _)
      case interlockClosing => exact still (pins true) (takes_held (s := s.setIlk true) hh _)
      all_goals exact still hs (takes_held hh _)

/-- While device reset holds the tick moves nothing but the time (R88). -/
theorem State.tick_deviceReset (s : State) : s.deviceReset.tick.deviceReset = s.deviceReset.tick := by
  have blank := s.deviceReset.tick.blank_deviceReset
  have before := s.blank_deviceReset
  have ctx (u : State) (j : Head) : u.deviceReset.ctxAt j = {} := by simp [State.deviceReset, State.reset, State.ctxAt]
  refine State.ext_at rfl rfl rfl rfl (fun e => ?_) rfl (fun j => ?_) (fun j => ?_)
    (fun j => (blank.rows j).trans (before.rows j).symm) rfl rfl rfl
  · have : s.deviceReset.tick.entryAt e = (s.deviceReset.entryAt e).elapse := by
      simp [State.tick, State.elapse, State.entryAt]
    rw [this, blank.entries, before.entries]
    rfl
  · have : s.deviceReset.tick.ctxAt j = (s.deviceReset.ctxAt j).elapse := by simp [State.tick, State.elapse, State.ctxAt]
    rw [this, ctx, ctx]
    rfl
  · have : s.deviceReset.tick.intakeAt j =
        { s.deviceReset.intakeAt j with staleTimer := countDown (s.deviceReset.intakeAt j).staleTimer } := by
      simp [State.tick, State.elapse, State.intakeAt]
    rw [this, blank.intake, before.intake]
    rfl

theorem State.Lawful.tick (hs : s.Lawful) : s.tick.Lawful := by
  refine hs.sound.tick.lawful hs.store (fun hr => ?_) hs.quiet.1 hs.quiet.2.1
  have := s.tick_deviceReset
  rwa [hs.resetHolds hr] at this

/-- Settles O8, by the laws in the course of an operation. -/
theorem lawfulKept : Obligations.LawfulKept := by
  intro s t hs h
  unfold step at h
  split at h
  · next c rest _ =>
    refine exec_lawful (s := { s with pending := rest }) ?_ h
    exact { hs with resetHolds := fun hr => congrArg (fun u : State => { u with pending := rest }) (hs.resetHolds hr) }
  · cases h
    exact hs.tick

end Sys2Proof.Machine
end

section
/-! States that differ in the notices and in the general queue alone take every operation of the cycle alike: nothing in the
work of an event depends on what has been announced. -/

namespace Sys2Proof.Machine

variable {s t u : State} {k : Flight}

/-- A state without its notices and without the frames and the reserved place of its general queue. -/
def State.core (s : State) : State :=
  { s with notices := {}, ring := { s.ring with general := [], reserved := false } }

/-- Two states that differ in the notices and the general queue with its reserved place alone. -/
def State.Like (s t : State) : Prop := s.core = t.core

theorem State.Like.refl (s : State) : s.Like s := Eq.refl s.core
theorem State.Like.symm (h : s.Like t) : t.Like s := Eq.symm h
theorem State.Like.trans (h : s.Like t) (h' : t.Like u) : s.Like u := Eq.trans h h'

/-- An operation that reads nothing beside the core carries like states to like states. -/
theorem State.Like.map {op : State → State} (h : s.Like t) (reads : ∀ u, (op u).core = (op u.core).core) :
    (op s).Like (op t) := by
  show (op s).core = (op t).core
  rw [reads, reads t, show s.core = t.core from h]

/-- What is read from the core is the same in like states. -/
theorem State.Like.view {α : Type} {v : State → α} (h : s.Like t) (reads : ∀ u, v u = v u.core) : v s = v t := by
  rw [reads, reads t, show s.core = t.core from h]

/-! ### What like states share -/

theorem State.Like.ctxAt (h : s.Like t) (j : Head) : s.ctxAt j = t.ctxAt j := h.view (v := fun u => u.ctxAt j) fun _ => rfl
theorem State.Like.intakeAt (h : s.Like t) (j : Head) : s.intakeAt j = t.intakeAt j :=
  h.view (v := fun u => u.intakeAt j) fun _ => rfl
theorem State.Like.rowAt (h : s.Like t) (j : Head) : s.rowAt j = t.rowAt j := h.view (v := fun u => u.rowAt j) fun _ => rfl
theorem State.Like.entryAt (h : s.Like t) (e : EntryIx) : s.entryAt e = t.entryAt e :=
  h.view (v := fun u => u.entryAt e) fun _ => rfl
theorem State.Like.cache (h : s.Like t) : s.cache = t.cache := h.view (v := State.cache) fun _ => rfl
theorem State.Like.store (h : s.Like t) : s.store = t.store := h.view (v := State.store) fun _ => rfl
theorem State.Like.carriers (h : s.Like t) : s.carriers = t.carriers := h.view (v := State.carriers) fun _ => rfl
theorem State.Like.queue (h : s.Like t) : s.queue = t.queue := h.view (v := State.queue) fun _ => rfl
theorem State.Like.boundDesc (h : s.Like t) (j : Head) : s.boundDesc j = t.boundDesc j :=
  h.view (v := fun u => u.boundDesc j) fun _ => rfl
theorem State.Like.readyDesc (h : s.Like t) (j : Head) : s.readyDesc j = t.readyDesc j :=
  h.view (v := fun u => u.readyDesc j) fun _ => rfl
theorem State.Like.firstReady (h : s.Like t) : s.firstReady = t.firstReady := h.view (v := State.firstReady) fun _ => rfl
theorem State.Like.closes (h : s.Like t) (c : CarrierEntry) : s.closes c = t.closes c :=
  h.view (v := fun u => u.closes c) fun _ => rfl

/-- Like states with the same notices and the same general queue are the same. -/
theorem State.Like.eq (h : s.Like t) (notices : s.notices = t.notices) (general : s.ring.general = t.ring.general)
    (reserved : s.ring.reserved = t.ring.reserved) : s = t := by
  have back (u : State) : u = { u.core with
      notices := u.notices, ring := { u.core.ring with general := u.ring.general, reserved := u.ring.reserved } } := rfl
  rw [back s, back t, show s.core = t.core from h, notices, general, reserved]

/-- A state in terms of a like one. -/
theorem State.Like.eq_with (h : s.Like t) :
    t = { s with notices := t.notices, ring := { s.ring with general := t.ring.general, reserved := t.ring.reserved } } :=
  State.Like.eq (State.Like.symm h : t.Like s) rfl rfl rfl

/-! ### The Notice Unit and the general queue -/

theorem State.like_placeReply (s : State) (f : Frame) : (s.placeReply f).Like s := rfl
theorem State.like_reserving (s : State) : s.reserving.Like s := rfl
theorem State.like_reportFault (s : State) : s.reportFault.Like s := rfl
theorem State.like_queued (s : State) (f : Frame) : (s.queued f).Like s := rfl

theorem State.like_report (s : State) : s.report.Like s := by
  simp only [State.report, State.offerAttention]
  repeat' split
  all_goals rfl

theorem State.like_offerFetch (s : State) (c : ClassId) : (s.offerFetch c).Like s := by
  unfold State.offerFetch
  split <;> rfl

/-! ### Steps, chains and stops -/

theorem State.Like.modCtx (hl : s.Like t) (h : Head) (f : HeadCtx → HeadCtx) : (s.modCtx h f).Like (t.modCtx h f) :=
  hl.map (op := fun u => u.modCtx h f) fun _ => rfl
theorem State.Like.modIntake (hl : s.Like t) (h : Head) (f : Intake → Intake) :
    (s.modIntake h f).Like (t.modIntake h f) := hl.map (op := fun u => u.modIntake h f) fun _ => rfl
theorem State.Like.modCarrier (hl : s.Like t) (id : CarrierId) (f : CarrierEntry → CarrierEntry) :
    (s.modCarrier id f).Like (t.modCarrier id f) := hl.map (op := fun u => u.modCarrier id f) fun _ => rfl
theorem State.Like.releaseClaims (hl : s.Like t) (h : Head) : (s.releaseClaims h).Like (t.releaseClaims h) :=
  hl.map (op := fun u => u.releaseClaims h) fun _ => rfl
theorem State.Like.stop (hl : s.Like t) (h : Head) (c : Bool) : (s.stop h c).Like (t.stop h c) :=
  hl.map (op := fun u => u.stop h c) fun _ => rfl
theorem State.Like.startStep (hl : s.Like t) (h : Head) (a : Nat) (w : StepWord) :
    (s.startStep h a w).Like (t.startStep h a w) := hl.map (op := fun u => u.startStep h a w) fun _ => rfl
theorem State.Like.startSegment (hl : s.Like t) (h : Head) (a : Nat) (w : StepWord) :
    (s.startSegment h a w).Like (t.startSegment h a w) := hl.map (op := fun u => u.startSegment h a w) fun _ => rfl

theorem State.Like.chainNext (hl : s.Like t) (h : Head) (w : StepWord) : (s.chainNext h w).Like (t.chainNext h w) := by
  unfold State.chainNext
  rw [hl.ctxAt]
  exact (hl.releaseClaims h).startStep _ _ _

theorem State.Like.chainSegment (hl : s.Like t) (h : Head) (w : StepWord) :
    (s.chainSegment h w).Like (t.chainSegment h w) := by
  unfold State.chainSegment
  rw [hl.ctxAt]
  exact hl.startSegment _ _ _

/-- Two progresses that differ in the notices and the general queue alone. -/
def Progress.Like (p q : Progress) : Prop := p.state.Like q.state ∧ p.ending = q.ending

theorem endEvent_like (n : Nat) (h : Head) (hl : s.Like t) : (endEvent n h s).Like (endEvent n h t) := by
  induction n generalizing s t with
  | zero => exact ⟨hl, hl.view (v := fun u => some (u.endingAt h .profileRange false)) fun _ => rfl⟩
  | succ n ih =>
    have decision : s.endDecision h = t.endDecision h := hl.view (v := fun u => u.endDecision h) fun _ => rfl
    unfold endEvent
    rw [decision]
    cases t.endDecision h with
    | ends o => exact ⟨hl, hl.view (v := fun u => some (u.endingAt h o false)) fun _ => rfl⟩
    | next w =>
      simp only
      split
      · exact ih (hl.chainNext h w)
      · exact ⟨hl.chainNext h w, rfl⟩
    | segment w =>
      simp only
      split
      · exact ih (hl.chainSegment h w)
      · exact ⟨hl.chainSegment h w, rfl⟩

/-! ### Records and carriers -/

theorem State.Like.offerJoint (hl : s.Like t) (h : Head) (r : JointRecord) : (s.offerJoint h r).Like (t.offerJoint h r) := by
  refine hl.map (op := fun u => u.offerJoint h r) fun u => ?_
  have room : u.core.queueHasRoom = u.queueHasRoom := rfl
  simp only [State.offerJoint, room]
  split <;> rfl

theorem closeEntries_like (cs : List CarrierEntry) (hl : s.Like t) : (closeEntries cs s).Like (closeEntries cs t) := by
  induction cs generalizing s t with
  | nil => exact hl
  | cons c cs ih =>
    unfold closeEntries
    have room : s.queueHasRoom = t.queueHasRoom := hl.view (v := State.queueHasRoom) fun _ => rfl
    rw [hl.closes, room]
    refine ih ?_
    split
    · split
      · exact hl.map (op := fun u : State => { u with carriers := u.carriers.filter fun k => k.id ≠ c.id }.enterRecord
          (.carrier c.record)) fun _ => rfl
      · exact hl.modCarrier _ _
    · exact hl

theorem State.Like.closeCarriers (hl : s.Like t) : s.closeCarriers.Like t.closeCarriers := by
  unfold State.closeCarriers
  rw [hl.carriers]
  exact closeEntries_like _ hl

/-! ### The Class Cache -/

/-- Two results of a lookup that differ in the notices and the general queue alone. -/
def BoundLike : Option Bound → Option Bound → Prop
  | some a, some b => a.state.Like b.state ∧ a.resident = b.resident
  | none, none => True
  | _, _ => False

theorem State.Like.bindTo (hl : s.Like t) (h : Head) (e : EntryIx) (v : Nat) : (s.bindTo h e v).Like (t.bindTo h e v) :=
  hl.map (op := fun u => u.bindTo h e v) fun _ => rfl
theorem State.Like.invalidate (hl : s.Like t) (e : EntryIx) : (s.invalidate e).Like (t.invalidate e) :=
  hl.map (op := fun u => u.invalidate e) fun _ => rfl
theorem State.Like.setBound (hl : s.Like t) (h : Head) (b : Bool) : (s.setBound h b).Like (t.setBound h b) :=
  hl.modCtx h _
theorem State.Like.modCache (hl : s.Like t) (f : ClassCache → ClassCache) : (s.modCache f).Like (t.modCache f) :=
  hl.map (op := fun u => u.modCache f) fun _ => rfl
theorem State.Like.fetched (hl : s.Like t) (h : Head) (c : ClassId) (v : EntryIx) :
    (s.fetched h c v).Like (t.fetched h c v) := hl.map (op := fun u => u.fetched h c v) fun _ => rfl

theorem State.Like.fetchInto (hl : s.Like t) (h : Head) (c : ClassId) (v : EntryIx) :
    (s.fetchInto h c v).Like (t.fetchInto h c v) := by
  rw [State.fetchInto_eq, State.fetchInto_eq]
  exact ((State.like_offerFetch _ c).trans (hl.fetched h c v)).trans (State.like_offerFetch _ c).symm

theorem State.Like.bindMiss (hl : s.Like t) (h : Head) (c : ClassId) : BoundLike (s.bindMiss h c) (t.bindMiss h c) := by
  have victim : s.victim = t.victim := hl.view (v := State.victim) fun _ => rfl
  unfold State.bindMiss
  rw [victim]
  cases t.victim with
  | none => trivial
  | some v => exact ⟨hl.fetchInto h c v, rfl⟩

theorem State.Like.tryBind (hl : s.Like t) (h : Head) (c : ClassId) (r : Bool) :
    BoundLike (s.tryBind h c r) (t.tryBind h c r) := by
  have found : s.matchEntry c = t.matchEntry c := hl.view (v := fun u => u.matchEntry c) fun _ => rfl
  unfold State.tryBind
  rw [found]
  cases t.matchEntry c with
  | none => exact hl.bindMiss h c
  | some e =>
    simp only [hl.entryAt]
    cases (t.entryAt e).body with
    | resident tag d =>
      simp only
      split
      · exact (hl.invalidate e).bindMiss h c
      · exact ⟨hl.bindTo h e _, rfl⟩
    | fetching tag n => exact ⟨hl.bindTo h e 0, rfl⟩
    | invalid => exact hl.bindMiss h c

theorem retryWaiters_like (ws : List Waiter) (hl : s.Like t) : (retryWaiters ws s).Like (retryWaiters ws t) := by
  induction ws generalizing s t with
  | nil => exact hl.modCache _
  | cons w ws ih =>
    have like := hl.tryBind w.head w.classId w.refresh
    unfold retryWaiters
    cases hs : s.tryBind w.head w.classId w.refresh with
    | none =>
      cases ht : t.tryBind w.head w.classId w.refresh with
      | none => exact hl.modCache _
      | some b => rw [hs, ht] at like; exact like.elim
    | some a =>
      cases ht : t.tryBind w.head w.classId w.refresh with
      | none => rw [hs, ht] at like; exact like.elim
      | some b =>
        rw [hs, ht] at like
        obtain ⟨states, resident⟩ := like
        simp only [resident]
        exact ih (states.setBound _ _)

theorem State.Like.runRetry (hl : s.Like t) : s.runRetry.Like t.runRetry := by
  unfold State.runRetry
  rw [hl.cache]
  split
  · exact (retryWaiters_like _ hl).modCache _
  · exact hl

theorem State.Like.unbind (hl : s.Like t) (h : Head) : (s.unbind h).Like (t.unbind h) := by
  refine hl.map (op := fun u => u.unbind h) fun u => ?_
  have ctx : u.core.ctxAt h = u.ctxAt h := rfl
  simp only [State.unbind, ctx]
  split
  · rfl
  · next b _ =>
    have users : (((u.core.modCtx h fun c => { c with binding := none }).modEntry b.entry
        fun x => { x with users := x.users - 1 }).entryAt b.entry).users =
      (((u.modCtx h fun c => { c with binding := none }).modEntry b.entry
        fun x => { x with users := x.users - 1 }).entryAt b.entry).users := rfl
    rw [users]
    split <;> rfl

/-! ### Promotion and termination -/

theorem State.Like.promote (hl : s.Like t) (h : Head) : (s.promote h).Like (t.promote h) := by
  unfold State.promote
  rw [hl.ctxAt]
  cases (t.ctxAt h).current with
  | none => exact hl
  | some cur =>
    simp only
    have armed := hl.modCtx h fun c => { c with state := .arming, current := some { cur with promoted := true } }
    have like := armed.tryBind h cur.asg.classId cur.asg.refresh
    refine State.Like.runRetry ?_
    have arm {a b : Bound} (states : a.state.Like b.state) (resident : a.resident = b.resident) :
        (a.state.modCtx h fun c => { c with reqs := some (a.state.requirementsFor h cur.asg a.resident) }).Like
          (b.state.modCtx h fun c => { c with reqs := some (b.state.requirementsFor h cur.asg b.resident) }) := by
      rw [resident, states.view (v := fun u => u.requirementsFor h cur.asg b.resident) fun _ => rfl]
      exact states.modCtx _ _
    unfold State.bindRequest
    revert like
    generalize (s.modCtx h fun c => { c with state := .arming, current := some { cur with promoted := true } }) = v at armed ⊢
    generalize (t.modCtx h fun c => { c with state := .arming, current := some { cur with promoted := true } }) = w at armed ⊢
    intro like
    cases hs : v.tryBind h cur.asg.classId cur.asg.refresh with
    | none =>
      cases ht : w.tryBind h cur.asg.classId cur.asg.refresh with
      | none => exact arm (armed.modCache _) rfl
      | some b => rw [hs, ht] at like; exact like.elim
    | some a =>
      cases ht : w.tryBind h cur.asg.classId cur.asg.refresh with
      | none => rw [hs, ht] at like; exact like.elim
      | some b =>
        rw [hs, ht] at like
        exact arm like.1 like.2

theorem State.Like.nextWork (hl : s.Like t) (h : Head) : (s.nextWork h).Like (t.nextWork h) := by
  unfold State.nextWork
  rw [hl.ctxAt]
  split
  · exact hl.promote h
  · exact (hl.modCtx h _).runRetry

theorem State.Like.settleHead (hl : s.Like t) (h : Head) (o : CycleOutcome) (e : Bool) :
    (s.settleHead h o e).Like (t.settleHead h o e) := by
  unfold State.settleHead
  cases causeOf o with
  | some cause => exact ((((hl.unbind h).modCtx h _).map (op := State.reportFault) fun _ => rfl)).runRetry
  | none =>
    simp only
    split
    · exact ((hl.unbind h).modCtx h _).nextWork h
    · exact (((hl.unbind h).modCtx h _).modCtx h _).runRetry

theorem State.Like.terminate (hl : s.Like t) (h : Head) (e : Ending) : (s.terminate h e).Like (t.terminate h e) := by
  unfold State.terminate
  simp only
  rw [show s.jointRecord h e = t.jointRecord h e from hl.view (v := fun u => u.jointRecord h e) fun _ => rfl, hl.boundDesc]
  have cool := ((hl.stop h e.cancel).modIntake h fun i => { i with staleTimer := none }).modCtx h
    fun c => c.terminated (((t.boundDesc h).map ClassDesc.settle).getD 0)
  rw [show State.queueHasRoom _ = State.queueHasRoom _ from cool.view (v := State.queueHasRoom) fun _ => rfl]
  exact ((cool.offerJoint h _).modCarrier _ _).settleHead h _ _

theorem State.Like.startCycle (hl : s.Like t) (h : Head) (d : ClassDesc) : (s.startCycle h d).Like (t.startCycle h d) := by
  have config : s.configAt h = t.configAt h := hl.view (v := fun u => u.configAt h) fun _ => rfl
  have fresh := (hl.modCtx h fun c => c.started d.start).modIntake h
    fun i => { i with staleTimer := some (t.configAt h).staleness }
  unfold State.startCycle
  simp only [config, hl.store]
  split
  · split
    · exact ⟨fresh, rfl⟩
    · split
      · exact endEvent_like _ h (fresh.startStep h _ _)
      · exact ⟨fresh.startStep h _ _, rfl⟩
  · exact ⟨fresh, rfl⟩

theorem Progress.Like.finish {p q : Progress} (hl : p.Like q) (h : Head) : (p.finish h).Like (q.finish h) := by
  unfold Progress.finish
  rw [hl.2]
  split
  · exact hl.1.terminate h _
  · exact hl.1

theorem startLoop_like (n : Nat) (hl : s.Like t) : (startLoop n s).Like (startLoop n t) := by
  induction n generalizing s t with
  | zero => exact hl
  | succ n ih =>
    unfold startLoop
    rw [hl.firstReady]
    cases t.firstReady with
    | none => exact hl
    | some p => exact ih ((hl.startCycle p.1 p.2).finish p.1)

theorem State.Like.startReady (hl : s.Like t) : s.startReady.Like t.startReady := startLoop_like 32 hl

theorem State.Like.conclude (hl : s.Like t) : s.conclude.Like t.conclude := hl.closeCarriers.startReady.closeCarriers

theorem Progress.Like.conclude {p q : Progress} (hl : p.Like q) (h : Head) : (p.conclude h).Like (q.conclude h) := by
  unfold Progress.conclude
  rw [hl.2]
  split
  · exact (hl.1.terminate h _).conclude
  · exact hl.1

end Sys2Proof.Machine
end

section
/-! What the work of an event places in the general queue: frames that are no REPLY, behind those that wait there (R157,
R158, R160). -/

namespace Sys2Proof.Machine

variable {s t u : State} {k : Flight}

/-- The general queue of `t` is that of `s` with frames behind it, none of which is a REPLY. -/
def State.Adds (s t : State) : Prop := ∃ l, t.ring.general = s.ring.general ++ l ∧ ∀ f ∈ l, f.kind ≠ 0x02

theorem State.Adds.of_eq (h : t.ring.general = s.ring.general) : s.Adds t := ⟨[], by simp [h], by simp⟩
theorem State.Adds.refl (s : State) : s.Adds s := .of_eq rfl

theorem State.Adds.trans (h : s.Adds t) (h' : t.Adds u) : s.Adds u := by
  obtain ⟨l, hl, kinds⟩ := h
  obtain ⟨l', hl', kinds'⟩ := h'
  refine ⟨l ++ l', by rw [hl', hl, List.append_assoc], fun f hf => ?_⟩
  rcases List.mem_append.mp hf with hf | hf
  · exact kinds f hf
  · exact kinds' f hf

/-- The frames that wait stay. -/
theorem State.Adds.mem (h : s.Adds t) {f : Frame} (hf : f ∈ s.ring.general) : f ∈ t.ring.general := by
  obtain ⟨l, hl, -⟩ := h
  rw [hl]
  exact List.mem_append_left _ hf

/-- The replies are the same. -/
theorem State.Adds.replies (h : s.Adds t) :
    (t.ring.general.filter fun f => f.kind = 0x02) = s.ring.general.filter fun f => f.kind = 0x02 := by
  obtain ⟨l, hl, kinds⟩ := h
  have none : (l.filter fun f => decide (f.kind = 0x02)) = [] := List.filter_eq_nil_iff.mpr fun f hf => by simpa using kinds f hf
  rw [hl, List.filter_append, none, List.append_nil]

theorem State.Adds.place (s : State) {f : Frame} (hf : f.kind ≠ 0x02) : s.Adds (s.placeGeneral f) :=
  ⟨[f], rfl, by simpa using hf⟩

theorem State.adds_report (s : State) : s.Adds s.report := by
  simp only [State.report, State.offerAttention]
  repeat' split
  · exact State.Adds.place _ (f := State.attentionFrame _) (by simp [State.attentionFrame, State.ccFrame])
  · exact .refl _
  · exact .refl _

theorem State.adds_offerFetch (s : State) (c : ClassId) : s.Adds (s.offerFetch c) := by
  rcases s.offerFetch_cases c with h | ⟨-, f, kind, h⟩
  · rw [h]; exact .refl s
  · rw [h]; exact .place s (by rw [kind]; decide)

/-! ### The Class Cache -/

theorem State.adds_bindMiss {h : Head} {c : ClassId} {b : Bound} (hb : s.bindMiss h c = some b) : s.Adds b.state := by
  unfold State.bindMiss at hb
  obtain ⟨v, -, rfl⟩ := Option.map_eq_some_iff.mp hb
  exact (State.Adds.of_eq (t := s.fetched h c v) rfl).trans (State.adds_offerFetch _ _)

theorem State.adds_tryBind {h : Head} {c : ClassId} {r : Bool} {b : Bound} (hb : s.tryBind h c r = some b) :
    s.Adds b.state := by
  unfold State.tryBind at hb
  cases hm : s.matchEntry c with
  | none => rw [hm] at hb; exact State.adds_bindMiss hb
  | some e =>
    rw [hm] at hb
    cases hx : (s.entryAt e).body with
    | resident tag d =>
      simp only [hx] at hb
      split at hb
      · exact (State.Adds.of_eq (t := s.invalidate e) rfl).trans (State.adds_bindMiss hb)
      · cases hb; exact .of_eq rfl
    | fetching tag n => simp only [hx] at hb; cases hb; exact .of_eq rfl
    | invalid => simp only [hx] at hb; exact State.adds_bindMiss hb

theorem adds_retryWaiters (ws : List Waiter) (s : State) : s.Adds (retryWaiters ws s) := by
  induction ws generalizing s with
  | nil => exact .of_eq rfl
  | cons w ws ih =>
    unfold retryWaiters
    split
    · next b hb => exact ((State.adds_tryBind hb).trans (.of_eq (t := b.state.setBound w.head b.resident) rfl)).trans (ih _)
    · exact .of_eq rfl

theorem State.adds_runRetry (s : State) : s.Adds s.runRetry := by
  unfold State.runRetry
  split
  · exact (adds_retryWaiters _ s).trans (.of_eq rfl)
  · exact .refl s

theorem State.adds_bindRequest (s : State) (h : Head) (c : ClassId) (r : Bool) : s.Adds (s.bindRequest h c r).state := by
  unfold State.bindRequest
  split
  · next b hb => exact State.adds_tryBind hb
  · exact .of_eq rfl

/-! ### Heads -/

theorem State.adds_promote (s : State) (h : Head) : s.Adds (s.promote h) := by
  unfold State.promote
  split
  · exact .refl s
  · next cur _ =>
    refine State.Adds.trans ?_ (State.adds_runRetry _)
    refine ((State.Adds.of_eq rfl).trans (State.adds_bindRequest
      (s.modCtx h fun c => { c with state := .arming, current := some { cur with promoted := true } }) h cur.asg.classId
      cur.asg.refresh)).trans (.of_eq rfl)

theorem State.adds_nextWork (s : State) (h : Head) : s.Adds (s.nextWork h) := by
  unfold State.nextWork
  split
  · exact s.adds_promote h
  · exact (State.Adds.of_eq (t := s.modCtx h fun c => { c with state := .idle }) rfl).trans (State.adds_runRetry _)

theorem State.adds_settleHead (s : State) (h : Head) (o : CycleOutcome) (e : Bool) : s.Adds (s.settleHead h o e) := by
  have unbound : s.Adds (s.unbind h) := .of_eq (by rw [State.unbind_ring])
  unfold State.settleHead
  split
  · next cause _ =>
    exact (unbound.trans (.of_eq (t := (s.unbind h).enterFaulted h cause) rfl)).trans (State.adds_runRetry _)
  · have advanced := unbound.trans (.of_eq (t := (s.unbind h).modCtx h HeadCtx.advance) rfl)
    dsimp only
    split
    · exact advanced.trans (State.adds_nextWork _ h)
    · exact (advanced.trans (.of_eq
        (t := ((s.unbind h).modCtx h HeadCtx.advance).modCtx h fun c => { c with state := .held }) rfl)).trans
        (State.adds_runRetry _)

theorem State.adds_terminate (s : State) (h : Head) (e : Ending) : s.Adds (s.terminate h e) := by
  unfold State.terminate
  refine State.Adds.trans (.of_eq ?_) (State.adds_settleHead _ h _ _)
  rw [State.reportEnd, State.modCarrier_ring, State.offerJoint_ring]
  rfl

theorem endEvent_general (n : Nat) (h : Head) (s : State) : (endEvent n h s).state.ring.general = s.ring.general := by
  induction n generalizing s with
  | zero => rfl
  | succ n ih =>
    unfold endEvent
    split
    · rfl
    · next w _ =>
      split
      · rw [ih]; rfl
      · rfl
    · split
      · rw [ih]; rfl
      · rfl

theorem State.startCycle_general (s : State) (h : Head) (d : ClassDesc) :
    (s.startCycle h d).state.ring.general = s.ring.general := by
  unfold State.startCycle State.takeEndEvent
  dsimp only
  split
  · split
    · rfl
    · split
      · rw [endEvent_general]; rfl
      · rfl
  · rfl

theorem Progress.adds_finish (p : Progress) (h : Head) : p.state.Adds (p.finish h) := by
  unfold Progress.finish
  split
  · exact State.adds_terminate _ h _
  · exact .refl _

theorem adds_startLoop (n : Nat) (s : State) : s.Adds (startLoop n s) := by
  induction n generalizing s with
  | zero => exact .refl s
  | succ n ih =>
    unfold startLoop
    split
    · exact .refl s
    · next h d _ =>
      exact ((State.Adds.of_eq (s.startCycle_general h d)).trans (Progress.adds_finish _ h)).trans (ih _)

theorem State.adds_startReady (s : State) : s.Adds s.startReady := adds_startLoop 32 s

theorem adds_closeEntries (cs : List CarrierEntry) (s : State) : s.Adds (closeEntries cs s) := by
  induction cs generalizing s with
  | nil => exact .refl s
  | cons c cs ih =>
    unfold closeEntries
    refine State.Adds.trans (.of_eq ?_) (ih _)
    repeat' split
    all_goals rfl

theorem State.adds_closeCarriers (s : State) : s.Adds s.closeCarriers := adds_closeEntries _ s

theorem State.adds_conclude (s : State) : s.Adds s.conclude :=
  (s.adds_closeCarriers.trans (State.adds_startReady _)).trans (State.adds_closeCarriers _)

theorem Progress.adds_conclude (p : Progress) (h : Head) : p.state.Adds (p.conclude h) := by
  unfold Progress.conclude
  split
  · exact (State.adds_terminate _ h _).trans (State.adds_conclude _)
  · exact .refl _

theorem State.adds_takeEndEvent (s : State) (h : Head) : s.Adds ((s.takeEndEvent h).conclude h) :=
  (State.Adds.of_eq (endEvent_general 1026 h s)).trans (Progress.adds_conclude _ h)

end Sys2Proof.Machine
end

section
/-! The start of a cycle on a valid step, and the starts of ready heads that all start so (R52, R67, R4). -/

namespace Sys2Proof.Machine

variable {s t u : State} {k : Flight} {h j : Head} {d : ClassDesc}

/-! ### One start -/

/-- The state with the cycle of a head started on its start word: fresh cycle state, the staleness timer, and the tier. -/
def State.start (s : State) (h : Head) (d : ClassDesc) : State :=
  ((s.modCtx h fun _ => s.startedCtx h d).modIntake h
    fun i => { i with staleTimer := some (s.configAt h).staleness }).modRow h
      fun r => { r with tier := some (s.store.read d.start).tier }

/-- The state with a head HEATING on no step yet, its staleness timer running (R67). -/
def State.entering (s : State) (h : Head) (d : ClassDesc) : State :=
  (s.modCtx h fun c => c.started d.start).modIntake h fun i => { i with staleTimer := some (s.configAt h).staleness }

theorem State.entering_ctxAt (s : State) (h j : Head) (d : ClassDesc) :
    (s.entering h d).ctxAt j = if j = h then s.startingCtx h d else s.ctxAt j := by
  rw [State.entering, State.modIntake_ctxAt, State.modCtx_ctxAt]
  rfl

theorem State.start_ctxAt (s : State) (h j : Head) (d : ClassDesc) :
    (s.start h d).ctxAt j = if j = h then s.startedCtx h d else s.ctxAt j := by
  rw [State.start, State.modRow_ctxAt, State.modIntake_ctxAt, State.modCtx_ctxAt]

theorem State.start_intakeAt (s : State) (h j : Head) (d : ClassDesc) :
    (s.start h d).intakeAt j =
      if j = h then { s.intakeAt h with staleTimer := some (s.configAt h).staleness } else s.intakeAt j := by
  rw [State.start, State.modRow_intakeAt, State.modIntake_intakeAt]
  rfl

theorem State.start_rowAt (s : State) (h j : Head) (d : ClassDesc) :
    (s.start h d).rowAt j =
      if j = h then { s.rowAt h with tier := some (s.store.read d.start).tier } else s.rowAt j := by
  rw [State.start, State.modRow_rowAt]
  rfl

theorem State.prefetchFor_eq_slotAfter (hd : s.boundDesc h = some d) (a : Nat) (w : StepWord) :
    s.prefetchFor h a w = s.slotAfter d a w := by
  simp [State.prefetchFor, State.slotAfter, hd]

/-- The first step of a cycle on the start word (R67, R4). -/
theorem State.startStep_entering (hd : s.boundDesc h = some d) :
    (s.entering h d).startStep h d.start (s.store.read d.start) = s.start h d := by
  have desc : (s.entering h d).boundDesc h = some d := by
    refine (State.boundDesc_congr (s := s) (t := s.entering h d) ?_ fun _ _ => rfl).trans hd
    rw [State.entering_ctxAt, if_pos rfl]
    rfl
  have slot : (s.entering h d).prefetchFor h d.start (s.store.read d.start) = s.slotAfter d d.start (s.store.read d.start) :=
    State.prefetchFor_eq_slotAfter desc _ _
  refine State.ext_at rfl rfl rfl rfl (fun _ => rfl) rfl (fun i => ?_) (fun i => ?_) (fun i => ?_) rfl rfl rfl
  · rw [State.startStep, State.writeTier, State.modRow_ctxAt, State.modCtx_ctxAt, State.start_ctxAt, slot,
      State.entering_ctxAt, State.entering_ctxAt, if_pos rfl]
    split
    · rw [State.entering, State.modIntake_intakeAt]
      simp [State.startedCtx, State.startingCtx]
    · rfl
  · rw [State.startStep, State.writeTier, State.modRow_intakeAt, State.modCtx_intakeAt, State.start_intakeAt,
      State.entering, State.modIntake_intakeAt]
    rfl
  · rw [State.startStep, State.writeTier, State.modRow_rowAt, State.start_rowAt]
    rfl

/-- The checks of R5 at the start of a cycle. -/
theorem State.startCycle_eq (hd : s.boundDesc h = some d) : s.startCycle h d =
    if d.inRange d.start then
      if (s.store.read d.start).kind? = none then
        { state := s.entering h d,
          ending := some { outcome := .badStep, addr := d.start, code := (s.store.read d.start).code, cancel := false } }
      else if (s.store.read d.start).zeroDwell then (s.start h d).takeEndEvent h
      else { state := s.start h d, ending := none }
    else { state := s.entering h d,
           ending := some { outcome := .profileRange, addr := d.start, code := 0, cancel := false } } := by
  rw [← State.startStep_entering hd]
  rfl

/-- A head that is ready on a valid step with time to run starts on it. -/
theorem State.ReadyOn.finish (hr : s.ReadyOn h d) : (s.startCycle h d).finish h = s.start h d := by
  obtain ⟨-, -, desc, range, kind, dwell⟩ := hr
  rw [State.startCycle_eq desc, if_pos range, if_neg kind, dwell]
  rfl

theorem State.start_boundDesc (s : State) (h j : Head) (d : ClassDesc) : (s.start h d).boundDesc j = s.boundDesc j := by
  refine State.boundDesc_congr ?_ fun _ _ => rfl
  rw [State.start_ctxAt]
  split
  · next hj => rw [hj]; rfl
  · rfl

theorem State.start_readyDesc (s : State) (h j : Head) (d : ClassDesc) :
    (s.start h d).readyDesc j = if j = h then none else s.readyDesc j := by
  unfold State.readyDesc
  rw [State.start_ctxAt, State.start_boundDesc]
  split
  · rw [if_neg]
    rintro ⟨state, -⟩
    cases state
  · rfl

/-! ### How often a start can happen -/

/-- What a head can still start: its assignments where it is not HEATING. -/
def HeadCtx.startable (c : HeadCtx) : Nat := if c.state = .heating then 0 else c.assignments.length

/-- What all heads can still start. -/
def State.startable (s : State) : Nat := (allHeads.map fun h => (s.ctxAt h).startable).sum

theorem HeadCtx.startable_le (c : HeadCtx) : c.startable ≤ 2 := by
  unfold HeadCtx.startable HeadCtx.assignments
  split
  · omega
  · cases c.current <;> cases c.next <;> simp

theorem State.startable_le (s : State) : s.startable ≤ 32 := by
  have bound : ∀ l : List Head, (l.map fun h => (s.ctxAt h).startable).sum ≤ 2 * l.length := by
    intro l
    induction l with
    | nil => simp
    | cons h l ih =>
      have := (s.ctxAt h).startable_le
      simp only [List.map_cons, List.sum_cons, List.length_cons]
      omega
  exact bound allHeads

theorem HeadCtx.startable_of_seat {c c' : HeadCtx} (h : c.seat = c'.seat) : c.startable = c'.startable :=
  show c.seat.startable = c'.seat.startable from congrArg HeadCtx.startable h

/-- One head can start less, the others the same. -/
theorem State.startable_lt (hj : ∀ i, i ≠ h → (t.ctxAt i).startable = (s.ctxAt i).startable)
    (hh : (t.ctxAt h).startable < (s.ctxAt h).startable) : t.startable < s.startable := by
  have := sum_allHeads (f := fun i => (t.ctxAt i).startable) (g := fun i => (s.ctxAt i).startable) h hj
  unfold State.startable
  omega

/-- A ready head can start. -/
theorem State.Sound.startable_pos (hs : s.Sound k) (hr : s.readyDesc h = some d) :
    0 < (s.ctxAt h).startable := by
  have arming := (State.readyDesc_iff.mp hr).1
  have promoted := ((hs.heads h).arming arming).1
  unfold HeadCtx.startable HeadCtx.assignments
  rw [if_neg (by rw [arming]; decide)]
  cases hc : (s.ctxAt h).current with
  | none => rw [hc] at promoted; cases promoted
  | some a => simp

/-- Nothing can start, nothing is ready. -/
theorem State.Sound.firstReady_of_startable (hs : s.Sound k) (h0 : s.startable = 0) :
    s.firstReady = none := by
  refine State.firstReady_none_iff.mpr fun h => ?_
  cases hr : s.readyDesc h with
  | none => rfl
  | some d =>
    have pos := hs.startable_pos hr
    have : (s.ctxAt h).startable ≤ s.startable :=
      List.single_le_sum (by simp) _ (List.mem_map.mpr ⟨h, mem_allHeads h, rfl⟩)
    omega

theorem State.start_startable (hs : s.Sound k) (hr : s.readyDesc h = some d) :
    (s.start h d).startable < s.startable := by
  refine State.startable_lt (h := h) (fun i hi => by rw [State.start_ctxAt, if_neg hi]) ?_
  rw [State.start_ctxAt, if_pos rfl]
  exact hs.startable_pos hr

/-! ### Starts that all succeed -/

theorem State.withStarts_intakeAt (s t : State) (i : Head) :
    (s.withStarts t).intakeAt i = if (s.readyDesc i).isSome then
      { s.intakeAt i with staleTimer := some (s.configAt i).staleness } else s.intakeAt i := by
  simp [State.withStarts, State.intakeAt]

theorem State.withStarts_rowAt (s t : State) (i : Head) :
    (s.withStarts t).rowAt i = match s.readyDesc i with
      | some d => { s.rowAt i with tier := some (s.store.read d.start).tier }
      | none => s.rowAt i := by
  cases hr : s.readyDesc i <;> simp [State.withStarts, State.rowAt, hr]

theorem State.withStarts_base (s t : State) : (s.withStarts t).base = t.base := by
  unfold State.base State.withStarts
  dsimp only

theorem State.withStarts_notices (s t : State) : (s.withStarts t).notices = t.notices := rfl

/-- With no head ready nothing starts. -/
theorem State.withStarts_of_none (hf : s.firstReady = none) : s.withStarts s = s := by
  have none := State.firstReady_none_iff.mp hf
  refine State.ext_at (State.withStarts_base s s) ?_ ?_ ?_ (fun e => ?_) ?_ (fun i => ?_) (fun i => ?_) (fun i => ?_) ?_ ?_ ?_
  iterate 5 · rfl
  · rw [State.withStarts_ctxAt, none]
  · rw [State.withStarts_intakeAt, none]; rfl
  · rw [State.withStarts_rowAt, none]
  iterate 3 · rfl

/-- A first start, then the others. -/
theorem State.start_withStarts (hr : s.readyDesc h = some d) : (s.start h d).withStarts (s.start h d) = s.withStarts s := by
  refine State.ext_at ((State.withStarts_base _ _).trans (State.withStarts_base s s).symm) ?_ ?_ ?_ (fun e => ?_) ?_
    (fun i => ?_) (fun i => ?_) (fun i => ?_) ?_ ?_ ?_
  iterate 5 · rfl
  · rw [State.withStarts_ctxAt, State.withStarts_ctxAt, State.start_readyDesc]
    by_cases hi : i = h
    · subst hi
      rw [if_pos rfl, hr, State.start_ctxAt, if_pos rfl]
    · rw [if_neg hi, State.start_ctxAt, if_neg hi]
      cases s.readyDesc i with
      | none => rfl
      | some e =>
        have ctx : (s.start h d).ctxAt i = s.ctxAt i := by rw [State.start_ctxAt, if_neg hi]
        have intake : (s.start h d).intakeAt i = s.intakeAt i := by rw [State.start_intakeAt, if_neg hi]
        have slot (a : Nat) (w : StepWord) : (s.start h d).slotAfter e a w = s.slotAfter e a w := rfl
        have store : (s.start h d).store = s.store := rfl
        simp only [State.startedCtx, State.startingCtx, ctx, intake, slot, store]
  · rw [State.withStarts_intakeAt, State.withStarts_intakeAt, State.start_readyDesc, State.start_intakeAt]
    by_cases hi : i = h
    · subst hi
      rw [if_pos rfl, if_pos rfl, hr]
      rfl
    · rw [if_neg hi, if_neg hi]
      rfl
  · rw [State.withStarts_rowAt, State.withStarts_rowAt, State.start_readyDesc, State.start_rowAt]
    by_cases hi : i = h
    · subst hi
      rw [if_pos rfl, if_pos rfl, hr]
    · rw [if_neg hi, if_neg hi]
      rfl
  iterate 3 · rfl

theorem State.ReadyOn.after_start {i : Head} {e : ClassDesc} (hi : s.ReadyOn i e) (hne : i ≠ h) :
    (s.start h d).ReadyOn i e := by
  obtain ⟨state, reqs, desc, checks⟩ := hi
  have ctx : (s.start h d).ctxAt i = s.ctxAt i := by rw [State.start_ctxAt, if_neg hne]
  exact ⟨by rw [ctx]; exact state, by rw [ctx]; exact reqs, by rw [State.start_boundDesc]; exact desc, checks⟩

/-- Where every ready head starts on a valid step, the starts are these and nothing else (R52). -/
theorem State.Sound.startLoop_withStarts {n : Nat} (hs : s.Sound k) (ho : k.owes = false) (hk : ∀ j, k.mode j ≠ .homeless)
    (hn : s.startable ≤ n) (ready : ∀ i e, s.readyDesc i = some e → s.ReadyOn i e) :
    Machine.startLoop n s = s.withStarts s := by
  induction n generalizing s with
  | zero => exact (State.withStarts_of_none (hs.firstReady_of_startable (by omega))).symm
  | succ n ih =>
    cases hf : s.firstReady with
    | none =>
      rw [State.withStarts_of_none hf]
      simp [Machine.startLoop, hf]
    | some p =>
      obtain ⟨h, d⟩ := p
      have hr := State.firstReady_some hf
      have on := ready h d hr
      have next := hs.finishStart ho hk hr
      have fewer := State.start_startable hs hr
      rw [on.finish] at next
      rw [startLoop_of_some hf, on.finish, ← State.start_withStarts hr]
      refine ih next (by omega) fun i e hi => ?_
      rw [State.start_readyDesc] at hi
      split at hi
      · cases hi
      · next hne => exact (ready i e hi).after_start hne

theorem State.Sound.startReady_withStarts (hs : s.Sound k) (ho : k.owes = false) (hk : ∀ j, k.mode j ≠ .homeless)
    (ready : ∀ i e, s.readyDesc i = some e → s.ReadyOn i e) : s.startReady = s.withStarts s :=
  hs.startLoop_withStarts ho hk s.startable_le ready

/-- The starts close no carrier. -/
theorem State.withStarts_closes (s t : State) (c : CarrierEntry) : (s.withStarts t).closes c = s.closes c := by
  unfold State.closes
  rw [State.holdsRecordOf_congr (s := s) fun j => ?_]
  rw [State.withStarts_ctxAt]
  split <;> rfl

end Sys2Proof.Machine
end

section
/-! What the end of a cycle leaves of the other heads: a bound head that waits for nothing keeps its context and the class it
is bound to, whatever the retry binds (R30, R33, R34, R71). -/

namespace Sys2Proof.Machine

variable {s t u : State} {k : Flight} {h g : Head} {d : ClassDesc}

/-! ### The end of a cycle at each block (R71, R72) -/

section
variable (s : State) (h j : Head) (e : Ending)

/-- The settle time of the class a head is bound to. -/
def State.settleOf (s : State) (h : Head) : Nat := ((s.boundDesc h).map ClassDesc.settle).getD 0

/-- The context of a head whose cycle has ended, before its new state is known (R71, R48, R140). -/
def State.endedCtx (s : State) (h : Head) (e : Ending) : HeadCtx :=
  { ((s.ctxAt h).terminated (s.settleOf h)).vacated with
    heldRecord := if s.queueHasRoom then (s.ctxAt h).heldRecord else some (s.jointRecord h e) }

theorem State.ended_ctxAt : (s.ended h e).ctxAt j = if j = h then s.endedCtx h e else s.ctxAt j := by
  have room : ((s.cool h e.cancel (s.settleOf h)).dismiss h (s.jointRecord h e).carrier
      (CarrierEntry.ended e.outcome.cls)).queueHasRoom = s.queueHasRoom := by simp [State.queueHasRoom, State.dismiss]
  have parts : s.ended h e = ((s.cool h e.cancel (s.settleOf h)).dismiss h (s.jointRecord h e).carrier
      (CarrierEntry.ended e.outcome.cls)).offerJoint h (s.jointRecord h e) := rfl
  rw [parts, State.offerJoint_ctxAt, room, State.dismiss, State.modCarrier_ctxAt, State.vacate_ctxAt, State.cool_ctxAt,
    State.cool_ctxAt, if_pos rfl]
  by_cases hj : j = h
  · subst hj
    cases hq : s.queueHasRoom <;> simp [State.endedCtx, hq, HeadCtx.vacated, HeadCtx.advance, HeadCtx.terminated]
  · simp [hj]

@[simp] theorem State.ended_entryAt (f : EntryIx) : (s.ended h e).entryAt f = (s.freed h).entryAt f := by
  have same : ((s.cool h e.cancel (s.settleOf h)).freed h).entryAt f = (s.freed h).entryAt f := by
    rw [State.freed_entryAt, State.freed_entryAt, State.cool_entryAt, State.cool_ctxAt, if_pos rfl]
    rfl
  rw [← same]
  simp [State.ended, State.dismiss, State.settleOf]

theorem State.ended_intakeAt : (s.ended h e).intakeAt j =
    if j = h then { s.intakeAt h with staleTimer := none } else s.intakeAt j := by
  rw [← State.cool_intakeAt s h j e.cancel (s.settleOf h)]
  simp [State.ended, State.dismiss, State.settleOf]

theorem State.ended_rowAt : (s.ended h e).rowAt j = if j = h then {} else (s.rowAt j).released h := by
  simp [State.ended, State.dismiss]

theorem State.ended_ring : (s.ended h e).ring =
    { s.ring with drive := placeIn s.ring.drive (s.stopFrame h e.cancel) } := by
  simp [State.ended, State.dismiss]

theorem State.ended_carriers : (s.ended h e).carriers = s.carriers.map fun c =>
    if c.id = (s.jointRecord h e).carrier then c.ended e.outcome.cls else c := by
  simp [State.ended, State.dismiss]

theorem State.ended_queue : (s.ended h e).queue =
    if s.queueHasRoom then s.queue ++ [.joint (s.jointRecord h e)] else s.queue := by
  have room : ((s.cool h e.cancel (s.settleOf h)).dismiss h (s.jointRecord h e).carrier
      (CarrierEntry.ended e.outcome.cls)).queueHasRoom = s.queueHasRoom := by simp [State.queueHasRoom, State.dismiss]
  have parts : s.ended h e = ((s.cool h e.cancel (s.settleOf h)).dismiss h (s.jointRecord h e).carrier
      (CarrierEntry.ended e.outcome.cls)).offerJoint h (s.jointRecord h e) := rfl
  rw [parts, (State.offerJoint_queue _ _ _).1, room]
  simp [State.dismiss]

@[simp] theorem State.ended_fetchLimit : (s.ended h e).cache.fetchLimit = s.cache.fetchLimit := by
  simp [State.ended, State.dismiss]

theorem State.ended_wait : (s.ended h e).cache.wait = s.cache.wait.filter fun w => w.head ≠ h := by
  simp [State.ended, State.dismiss]

@[simp] theorem State.ended_base : (s.ended h e).base = s.base := by
  simp [State.ended, State.dismiss]

end

/-! ### Heads that wait for nothing -/

/-- A head waits for no class, and the entry it is bound to, if any, is in use. -/
def State.Seated (s : State) (g : Head) : Prop :=
  (∀ w ∈ s.cache.wait, w.head ≠ g) ∧
    ∀ b ∈ (s.ctxAt g).binding, (s.entryAt b.entry).body.isInvalid = false ∧ 0 < (s.entryAt b.entry).users

/-- Head `g`, where it waits for nothing, keeps its context and the class it is bound to. -/
def State.Spares (g : Head) (s t : State) : Prop :=
  s.Seated g → t.Seated g ∧ t.ctxAt g = s.ctxAt g ∧
    ∀ b ∈ (s.ctxAt g).binding, (t.entryAt b.entry).body = (s.entryAt b.entry).body

theorem State.Spares.trans (h : s.Spares g t) (h' : t.Spares g u) : s.Spares g u := fun seated => by
  obtain ⟨seated', ctx, body⟩ := h seated
  obtain ⟨seated'', ctx', body'⟩ := h' seated'
  exact ⟨seated'', ctx'.trans ctx, fun b hb => (body' b (by rw [ctx]; exact hb)).trans (body b hb)⟩

/-- Nothing is changed but what another head holds. -/
theorem State.Spares.of_same (wait : t.cache.wait = s.cache.wait) (ctx : t.ctxAt g = s.ctxAt g)
    (entries : ∀ e, t.entryAt e = s.entryAt e) : s.Spares g t := fun seated =>
  ⟨⟨by rw [wait]; exact seated.1, by rw [ctx]; intro b hb; rw [entries]; exact seated.2 b hb⟩, ctx,
    fun b _ => by rw [entries]⟩

theorem State.spares_modCtx (s : State) (hg : g ≠ h) (f : HeadCtx → HeadCtx) : s.Spares g (s.modCtx h f) :=
  .of_same rfl (State.modCtx_ctxAt_of_ne _ hg _) fun _ => rfl

theorem State.spares_reportFault (s : State) : s.Spares g s.reportFault := .of_same rfl rfl fun _ => rfl

/-- An entry in use is not idle. -/
theorem Entry.idle_of_used {x : Entry} (hx : x.body.isInvalid = false ∧ 0 < x.users) : x.idle = false := by
  obtain ⟨valid, users⟩ := hx
  simp [Entry.idle, valid]
  omega

theorem State.spares_bindTo (s : State) (hg : g ≠ h) (e : EntryIx) (v : Nat) : s.Spares g (s.bindTo h e v) := by
  intro seated
  have ctx : (s.bindTo h e v).ctxAt g = s.ctxAt g := by rw [State.bindTo_ctxAt, if_neg hg]
  refine ⟨⟨seated.1, fun b hb => ?_⟩, ctx, fun b _ => by rw [State.bindTo_entryAt]; rfl⟩
  rw [ctx] at hb
  obtain ⟨valid, users⟩ := seated.2 b hb
  rw [State.bindTo_entryAt, State.hitAt]
  exact ⟨valid, Nat.lt_of_lt_of_le users (Nat.le_add_right _ _)⟩

/-- An idle entry changed is not the one a head is bound to. -/
theorem State.spares_modEntry {v : EntryIx} (hv : (s.entryAt v).idle = true) (f : Entry → Entry) :
    s.Spares g (s.modEntry v f) := by
  intro seated
  have same {b : Binding} (hb : b ∈ (s.ctxAt g).binding) : (s.modEntry v f).entryAt b.entry = s.entryAt b.entry := by
    refine s.modEntry_entryAt_of_ne (fun e => ?_) _
    rw [← e, Entry.idle_of_used (seated.2 b hb)] at hv
    cases hv
  exact ⟨⟨seated.1, fun b hb => by rw [same hb]; exact seated.2 b hb⟩, rfl, fun b hb => by rw [same hb]⟩

theorem State.spares_fetchInto (hg : g ≠ h) {v : EntryIx} (hv : (s.entryAt v).idle = true) (c : ClassId) :
    s.Spares g (s.fetchInto h c v) := by
  have fetched : s.Spares g (s.fetched h c v) := (State.spares_modEntry hv _).trans (State.spares_bindTo _ hg v 0)
  rw [State.fetchInto_eq]
  exact fetched.trans (.of_same (by rw [State.offerFetch_cache]) (by rw [State.offerFetch_ctxAt])
    fun e => by rw [State.offerFetch_entryAt])

/-- A lookup for another head takes no entry in use (R28 to R31). -/
theorem State.spares_tryBind (hg : g ≠ h) {c : ClassId} {r : Bool} {b : Bound} (hb : s.tryBind h c r = some b) :
    s.Spares g b.state := by
  have lookup := s.lookup h c r
  rw [hb] at lookup
  cases lookup with
  | resident => exact s.spares_bindTo hg _ _
  | fetching => exact s.spares_bindTo hg _ _
  | @refreshed e v asked resident hit users victim =>
    have idle : (s.entryAt e).idle = true := by simp [Entry.idle, resident, users]
    have dropped : s.Spares g (s.invalidate e) :=
      (State.spares_modEntry idle fun x => { x with body := .invalid, users := 0 }).trans (.of_same rfl rfl fun _ => rfl)
    exact dropped.trans (State.spares_fetchInto hg (State.victim_idle victim) c)
  | missed miss victim => exact State.spares_fetchInto hg (State.victim_idle victim) c

theorem State.spares_setWait (s : State) {ws : List Waiter} (hw : ∀ w ∈ ws, w.head ≠ g) : s.Spares g (s.setWait ws) :=
  fun seated => ⟨⟨hw, seated.2⟩, rfl, fun _ _ => rfl⟩

/-- The wait-list retry binds the heads that wait (R33). -/
theorem spares_retryWaiters {ws : List Waiter} (hw : ∀ w ∈ ws, w.head ≠ g) (s : State) : s.Spares g (retryWaiters ws s) := by
  induction ws generalizing s with
  | nil => exact s.spares_setWait (by simp)
  | cons w ws ih =>
    have hg : g ≠ w.head := (hw w List.mem_cons_self).symm
    unfold retryWaiters
    split
    · next b hb =>
      exact ((State.spares_tryBind hg hb).trans (State.spares_modCtx _ hg _)).trans
        (ih (fun v hv => hw v (List.mem_cons_of_mem _ hv)) _)
    · exact s.spares_setWait hw

theorem State.spares_runRetry (s : State) : s.Spares g s.runRetry := by
  intro seated
  have spared : s.Spares g s.runRetry := by
    unfold State.runRetry
    split
    · exact (spares_retryWaiters seated.1 s).trans (.of_same rfl rfl fun _ => rfl)
    · exact .of_same rfl rfl fun _ => rfl
  exact spared seated

theorem State.spares_promote (s : State) (hg : g ≠ h) : s.Spares g (s.promote h) := by
  unfold State.promote
  split
  · exact .of_same rfl rfl fun _ => rfl
  · next cur _ =>
    refine State.Spares.trans (State.Spares.trans ?_ (State.spares_modCtx _ hg _)) (State.spares_runRetry _)
    refine (s.spares_modCtx hg fun c => { c with state := .arming, current := some { cur with promoted := true } }).trans ?_
    unfold State.bindRequest
    split
    · next b hb => exact State.spares_tryBind hg hb
    · intro seated
      refine State.spares_setWait _ (fun w hw => ?_) seated
      rcases List.mem_append.mp hw with hw | hw
      · exact seated.1 w hw
      · rw [List.mem_singleton.mp hw]; exact hg.symm

theorem State.spares_nextWork (s : State) (hg : g ≠ h) : s.Spares g (s.nextWork h) := by
  unfold State.nextWork
  split
  · exact s.spares_promote hg
  · exact (s.spares_modCtx hg _).trans (State.spares_runRetry _)

/-- In a lawful state a head that is bound waits for nothing. -/
theorem State.Sound.seated (hs : s.Sound k) (hb : (s.ctxAt g).binding.isSome = true) : s.Seated g := by
  refine ⟨fun w hw e => ?_, fun b hbg => ⟨?_, ?_⟩⟩
  · have := (hs.cache.waiters.2 w hw).2.1
    rw [e] at this
    rw [this] at hb
    cases hb
  · have fits := hs.cache.bindings g b hbg
    unfold Binding.Fits at fits
    cases hx : (s.entryAt b.entry).body with
    | invalid => rw [hx] at fits; exact fits.elim
    | fetching => rfl
    | resident => rfl
  · rw [hs.cache.users b.entry]
    refine List.length_pos_of_mem (List.mem_filter.mpr ⟨mem_allHeads g, ?_⟩)
    rw [Option.mem_def.mp hbg]
    simp

/-- The end of the cycle of one head leaves another that is bound as it is. -/
theorem State.Sound.spares_ended (hs : s.Sound k) (hh : (s.ctxAt h).state = .heating) (hg : g ≠ h)
    (hb : (s.ctxAt g).binding.isSome = true) (e : Ending) :
    (s.ended h e).Seated g ∧ (s.ended h e).ctxAt g = s.ctxAt g ∧
      ∀ b ∈ (s.ctxAt g).binding, ((s.ended h e).entryAt b.entry).body = (s.entryAt b.entry).body := by
  have ctx : (s.ended h e).ctxAt g = s.ctxAt g := by rw [State.ended_ctxAt, if_neg hg]
  exact ⟨(hs.ended hh e).seated (by rw [ctx]; exact hb), ctx, fun b _ => by rw [State.ended_entryAt, State.freed_body]⟩

/-- A termination leaves another head that is bound as it is, and the class it is bound to (R33, R34). -/
theorem State.Sound.terminate_spares (hs : s.Sound k) (hh : (s.ctxAt h).state = .heating) (hg : g ≠ h)
    (hb : (s.ctxAt g).binding.isSome = true) (e : Ending) :
    (s.terminate h e).ctxAt g = s.ctxAt g ∧ (s.terminate h e).boundDesc g = s.boundDesc g := by
  obtain ⟨-, -, reqs, -⟩ := (hs.heads h).heating hh
  obtain ⟨seated, ctx, body⟩ := hs.spares_ended hh hg hb e
  have spared : (s.ended h e).Spares g (s.terminate h e) := by
    rw [State.terminate_eq e reqs (hs.absent (by rw [hh]; decide))]
    split
    · next cause _ =>
      exact (State.spares_modCtx _ hg fun c => { c with state := .faulted, cause := some cause }).trans
        ((State.spares_reportFault _).trans (State.spares_runRetry _))
    · split
      · exact State.spares_nextWork _ hg
      · exact (State.spares_modCtx _ hg _).trans (State.spares_runRetry _)
  obtain ⟨-, ctx', body'⟩ := spared seated
  refine ⟨ctx'.trans ctx, State.boundDesc_congr (by rw [ctx', ctx]) fun b hb => ?_⟩
  rw [body' b (by rw [ctx]; exact hb), body b hb]

end Sys2Proof.Machine
end

section
/-! A ready head that starts on a valid step is started, whatever happens to the starts of the other heads (R52). -/

namespace Sys2Proof.Machine

variable {s t u : State} {k : Flight} {h g : Head} {d : ClassDesc}

/-! ### Steps of one head -/

/-- What chains and segments of head `h` leave: everything but the step fields of its context, its tier and the caps of the
rows it claims from. -/
structure State.StepsOn (h : Head) (s t : State) : Prop where
  others : ∀ g, g ≠ h → t.ctxAt g = s.ctxAt g
  own : (t.ctxAt h).cycle = (s.ctxAt h).cycle
  intake : ∀ g, t.intakeAt g = s.intakeAt g
  cache : t.cache = s.cache
  carriers : t.carriers = s.carriers
  queue : t.queue = s.queue
  base : t.base = s.base
  rows : ∀ g, g ≠ h → (s.rowAt g).cap = none → t.rowAt g = s.rowAt g

theorem State.StepsOn.refl (h : Head) (s : State) : s.StepsOn h s :=
  ⟨fun _ _ => rfl, rfl, fun _ => rfl, rfl, rfl, rfl, rfl, fun _ _ _ => rfl⟩

theorem State.StepsOn.trans (a : s.StepsOn h t) (b : t.StepsOn h u) : s.StepsOn h u where
  others g hg := (b.others g hg).trans (a.others g hg)
  own := b.own.trans a.own
  intake g := (b.intake g).trans (a.intake g)
  cache := b.cache.trans a.cache
  carriers := b.carriers.trans a.carriers
  queue := b.queue.trans a.queue
  base := b.base.trans a.base
  rows g hg hc := by
    have row := a.rows g hg hc
    exact (b.rows g hg (by rw [row]; exact hc)).trans row

/-- Changes of the step fields of a head, with a tier. -/
theorem State.stepsOn_modCtx (s : State) (h : Head) {f : HeadCtx → HeadCtx} (tier : Tier)
    (hf : (f (s.ctxAt h)).cycle = (s.ctxAt h).cycle) : s.StepsOn h ((s.modCtx h f).writeTier h tier) where
  others g hg := State.modCtx_ctxAt_of_ne s hg f
  own := by
    rw [State.writeTier, State.modRow_ctxAt, State.modCtx_ctxAt, if_pos rfl]
    exact hf
  intake _ := rfl
  cache := rfl
  carriers := rfl
  queue := rfl
  base := rfl
  rows g hg _ := by rw [State.writeTier, State.modRow_rowAt_of_ne _ hg]; rfl

theorem State.stepsOn_releaseClaims (s : State) (h : Head) : s.StepsOn h (s.releaseClaims h) where
  others g _ := s.releaseClaims_ctxAt h g
  own := by rw [State.releaseClaims_ctxAt]
  intake g := s.releaseClaims_intakeAt h g
  cache := s.releaseClaims_cache h
  carriers := s.releaseClaims_carriers h
  queue := s.releaseClaims_queue h
  base := s.releaseClaims_base h
  rows g _ hc := by rw [State.releaseClaims_rowAt, Row.released, hc]; rfl

theorem State.stepsOn_startStep (s : State) (h : Head) (a : Nat) (w : StepWord) : s.StepsOn h (s.startStep h a w) :=
  s.stepsOn_modCtx h w.tier rfl

theorem State.stepsOn_chainNext (s : State) (h : Head) (w : StepWord) : s.StepsOn h (s.chainNext h w) :=
  (s.stepsOn_releaseClaims h).trans (State.stepsOn_startStep _ h _ w)

theorem State.stepsOn_chainSegment (s : State) (h : Head) (w : StepWord) : s.StepsOn h (s.chainSegment h w) :=
  s.stepsOn_modCtx h w.tier rfl

theorem endEvent_stepsOn (n : Nat) (h : Head) (s : State) : s.StepsOn h (endEvent n h s).state := by
  induction n generalizing s with
  | zero => exact .refl h s
  | succ n ih =>
    unfold endEvent
    cases s.endDecision h with
    | ends o => exact .refl h s
    | next w =>
      simp only
      split
      · exact (s.stepsOn_chainNext h w).trans (ih _)
      · exact s.stepsOn_chainNext h w
    | segment w =>
      simp only
      split
      · exact (s.stepsOn_chainSegment h w).trans (ih _)
      · exact s.stepsOn_chainSegment h w

/-! ### The blocks beside the cache at the end of a cycle -/

/-- What a termination leaves of the blocks beside the heads and the cache is what the end of the cycle leaves (R71). -/
theorem State.terminate_bindsOnly (e : Ending) (hr : (s.ctxAt h).reqs = none) (hw : ∀ w ∈ s.cache.wait, w.head ≠ h) :
    (s.ended h e).BindsOnly (s.terminate h e) ∨ (s.ended h e).reportFault.BindsOnly (s.terminate h e) := by
  rw [State.terminate_eq e hr hw]
  cases causeOf e.outcome with
  | some cause =>
    right
    exact (State.bindsOnly_modCtx _ h fun c => { c with state := .faulted, cause := some cause }).trans
      (State.bindsOnly_runRetry _)
  | none =>
    left
    dsimp only
    split
    · exact State.bindsOnly_nextWork _ h
    · exact (State.bindsOnly_modCtx _ h _).trans (State.bindsOnly_runRetry _)

/-- What is read beside the contexts, the entries, the cache-wait list, the general queue and the notices is the same after
a termination as after the end of the cycle. -/
theorem State.terminate_view {α : Type} {v : State → α} (e : Ending) (hr : (s.ctxAt h).reqs = none)
    (hw : ∀ w ∈ s.cache.wait, w.head ≠ h) (report : ∀ u : State, v u.reportFault = v u)
    (binds : ∀ u t : State, u.BindsOnly t → v t = v u) : v (s.terminate h e) = v (s.ended h e) := by
  rcases State.terminate_bindsOnly e hr hw with b | b
  · exact binds _ _ b
  · rw [binds _ _ b, report]

section
variable (e : Ending) (hr : (s.ctxAt h).reqs = none) (hw : ∀ w ∈ s.cache.wait, w.head ≠ h)
include hr hw

theorem State.terminate_intakeAt (j : Head) : (s.terminate h e).intakeAt j =
    if j = h then { s.intakeAt h with staleTimer := none } else s.intakeAt j := by
  rw [State.terminate_view (v := fun u => u.intakeAt j) e hr hw (fun _ => rfl) fun _ _ b => by
    simp only [State.intakeAt, b.intake], State.ended_intakeAt]

theorem State.terminate_rowAt (j : Head) : (s.terminate h e).rowAt j =
    if j = h then {} else (s.rowAt j).released h := by
  rw [State.terminate_view (v := fun u => u.rowAt j) e hr hw (fun _ => rfl) fun _ _ b => by
    simp only [State.rowAt, b.share], State.ended_rowAt]

theorem State.terminate_carriers : (s.terminate h e).carriers = s.carriers.map fun c =>
    if c.id = (s.jointRecord h e).carrier then c.ended e.outcome.cls else c := by
  rw [State.terminate_view (v := State.carriers) e hr hw (fun _ => rfl) fun _ _ b => b.carriers, State.ended_carriers]

theorem State.terminate_queue : (s.terminate h e).queue =
    if s.queueHasRoom then s.queue ++ [.joint (s.jointRecord h e)] else s.queue := by
  rw [State.terminate_view (v := State.queue) e hr hw (fun _ => rfl) fun _ _ b => b.queue, State.ended_queue]

theorem State.terminate_drive : (s.terminate h e).ring.drive = placeIn s.ring.drive (s.stopFrame h e.cancel) := by
  have binds (u t : State) (b : u.BindsOnly t) : t.ring.drive = u.ring.drive := by
    have := congrArg RingPort.drive b.ring
    exact this
  rw [State.terminate_view (v := fun u => u.ring.drive) e hr hw (fun _ => rfl) binds, State.ended_ring]

end

/-! ### The start of a cycle and the other heads -/

/-- The start of a cycle, and the steps it passes through, on a state in which the head has entered HEATING. -/
theorem State.startCycle_stepsOn (s : State) (h : Head) (d : ClassDesc) :
    (s.entering h d).StepsOn h (s.startCycle h d).state := by
  have started := State.stepsOn_startStep (s.entering h d) h d.start (s.store.read d.start)
  unfold State.startCycle
  dsimp only
  split
  · split
    · exact .refl h _
    · split
      · exact started.trans (endEvent_stepsOn _ h _)
      · exact started
  · exact .refl h _

theorem State.entering_boundDesc (s : State) (h j : Head) (d : ClassDesc) :
    (s.entering h d).boundDesc j = s.boundDesc j := by
  refine State.boundDesc_congr ?_ fun _ _ => rfl
  rw [State.entering_ctxAt]
  split
  · next hj => rw [hj]; rfl
  · rfl

theorem State.StepsOn.binding (hst : s.StepsOn h t) (j : Head) : (t.ctxAt j).binding = (s.ctxAt j).binding := by
  by_cases hj : j = h
  · subst hj
    exact (HeadCtx.cycle_eq_iff.mp hst.own).2.2.2.1
  · rw [hst.others j hj]

theorem State.StepsOn.boundDesc (hst : s.StepsOn h t) (j : Head) : t.boundDesc j = s.boundDesc j :=
  State.boundDesc_congr (hst.binding j) fun b _ => by rw [State.entryAt, State.entryAt, hst.cache]

/-- The start of another head, with the termination of a cycle that ends at its start, leaves the head as it is. -/
theorem State.Sound.finishStart_spares (hs : s.Sound k) (hk : ∀ j, k.mode j ≠ .homeless) (hr : s.readyDesc h = some d)
    (hg : g ≠ h) (hb : (s.ctxAt g).binding.isSome = true) (hc : (s.rowAt g).cap = none) :
    ((s.startCycle h d).finish h).ctxAt g = s.ctxAt g ∧ ((s.startCycle h d).finish h).intakeAt g = s.intakeAt g ∧
      ((s.startCycle h d).finish h).rowAt g = s.rowAt g ∧ ((s.startCycle h d).finish h).boundDesc g = s.boundDesc g := by
  have steps := s.startCycle_stepsOn h d
  obtain ⟨-, deferred⟩ := hs.startCycle hr (hs.plain_of_arming (State.readyDesc_iff.mp hr).1 (hk h))
  have row : (s.entering h d).rowAt g = s.rowAt g := rfl
  have ctx : (s.startCycle h d).state.ctxAt g = s.ctxAt g := by
    rw [steps.others g hg, State.entering_ctxAt, if_neg hg]
  have intake : (s.startCycle h d).state.intakeAt g = s.intakeAt g := by
    rw [steps.intake, State.entering, State.modIntake_intakeAt_of_ne _ hg]
    rfl
  have rows : (s.startCycle h d).state.rowAt g = s.rowAt g := by rw [steps.rows g hg (by rw [row]; exact hc), row]
  have desc : (s.startCycle h d).state.boundDesc g = s.boundDesc g := by
    rw [steps.boundDesc, State.entering_boundDesc]
  unfold Progress.finish
  split
  · next e _ =>
    have heating : ((s.startCycle h d).state.ctxAt h).state = .heating := by rw [State.startCycle_state, if_pos rfl]
    obtain ⟨ctx', desc'⟩ := deferred.terminate_spares heating hg (by rw [ctx]; exact hb) e
    have shape := (deferred.heads h).heating heating
    have absent := deferred.absent (h := h) (by rw [heating]; decide)
    refine ⟨ctx'.trans ctx, ?_, ?_, desc'.trans desc⟩
    · rw [State.terminate_intakeAt e shape.2.2.1 absent, if_neg hg, intake]
    · rw [State.terminate_rowAt e shape.2.2.1 absent, if_neg hg, rows, Row.released, hc]
      rfl
  · exact ⟨ctx, intake, rows, desc⟩

theorem State.finishStart_base (s : State) (h : Head) (d : ClassDesc) : ((s.startCycle h d).finish h).base = s.base := by
  have steps := (s.startCycle_stepsOn h d).base
  unfold Progress.finish
  split
  · rw [State.terminate_base, steps]
    rfl
  · rw [steps]
    rfl

/-! ### The starts come to an end -/

/-- The assignments of a head, whether promoted or waiting. -/
def HeadCtx.slots (c : HeadCtx) : Option Assignment × Option Assignment := (c.current.map Current.asg, c.next)

theorem HeadCtx.slots_of_seat {c c' : HeadCtx} (h : c.seat = c'.seat) : c.slots = c'.slots :=
  show c.seat.slots = c'.seat.slots from congrArg HeadCtx.slots h

theorem State.promote_slots (s : State) (h : Head) : ((s.promote h).ctxAt h).slots = (s.ctxAt h).slots := by
  unfold State.promote
  split
  · rfl
  · next cur hc =>
    dsimp only
    rw [HeadCtx.slots_of_seat (State.runRetry_seat _ h), State.modCtx_ctxAt, if_pos rfl,
      show ∀ (c : HeadCtx) (r : Option Requirements), HeadCtx.slots { c with reqs := r } = c.slots from fun _ _ => rfl,
      HeadCtx.slots_of_seat (State.bindRequest_seat _ h _ _ h), State.modCtx_ctxAt, if_pos rfl]
    simp [HeadCtx.slots, hc]

/-- A termination takes one assignment from its head. -/
theorem State.terminate_slots (e : Ending) (hr : (s.ctxAt h).reqs = none) (hw : ∀ w ∈ s.cache.wait, w.head ≠ h) :
    ((s.terminate h e).ctxAt h).slots = ((s.ctxAt h).next, none) := by
  have ended : ((s.ended h e).ctxAt h).slots = ((s.ctxAt h).next, none) := by
    rw [State.ended_ctxAt, if_pos rfl]
    cases hn : (s.ctxAt h).next <;>
      simp [State.endedCtx, HeadCtx.vacated, HeadCtx.advance, HeadCtx.terminated, HeadCtx.slots, hn]
  have state (u : State) (st : HeadState) (c : Option FaultCause) :
      ((u.modCtx h fun x => { x with state := st, cause := c }).ctxAt h).slots = (u.ctxAt h).slots := by
    rw [State.modCtx_ctxAt, if_pos rfl]
    rfl
  have resting (u : State) (st : HeadState) :
      ((u.modCtx h fun x => { x with state := st }).ctxAt h).slots = (u.ctxAt h).slots := by
    rw [State.modCtx_ctxAt, if_pos rfl]
    rfl
  have reported (u : State) : (u.reportFault.ctxAt h) = u.ctxAt h := rfl
  rw [State.terminate_eq e hr hw, ← ended]
  split
  · rw [HeadCtx.slots_of_seat (State.runRetry_seat _ h), reported, state]
  · split
    · unfold State.nextWork
      split
      · rw [State.promote_slots]
      · rw [HeadCtx.slots_of_seat (State.runRetry_seat _ h), resting]
    · rw [HeadCtx.slots_of_seat (State.runRetry_seat _ h), resting]

theorem HeadCtx.startable_le_slots (c : HeadCtx) : c.startable ≤ c.slots.1.toList.length + c.slots.2.toList.length := by
  unfold HeadCtx.startable HeadCtx.slots HeadCtx.assignments
  split
  · omega
  · simp

/-- Each start takes one from what can start. -/
theorem State.Sound.finishStart_startable (hs : s.Sound k) (hk : ∀ j, k.mode j ≠ .homeless)
    (hr : s.readyDesc h = some d) : ((s.startCycle h d).finish h).startable < s.startable := by
  have steps := s.startCycle_stepsOn h d
  obtain ⟨-, deferred⟩ := hs.startCycle hr (hs.plain_of_arming (State.readyDesc_iff.mp hr).1 (hk h))
  have heating : ((s.startCycle h d).state.ctxAt h).state = .heating := by rw [State.startCycle_state, if_pos rfl]
  have others (i : Head) (hi : i ≠ h) : (s.startCycle h d).state.ctxAt i = s.ctxAt i := by
    rw [steps.others i hi, State.entering_ctxAt, if_neg hi]
  unfold Progress.finish
  split
  · next e _ =>
    have shape := (deferred.heads h).heating heating
    have absent := deferred.absent (h := h) (by rw [heating]; decide)
    refine State.startable_lt (h := h) (fun i hi => ?_) ?_
    · rw [HeadCtx.startable_of_seat (State.terminate_seat_of_ne _ hi e), others i hi]
    · refine Nat.lt_of_le_of_lt (HeadCtx.startable_le_slots _) ?_
      rw [State.terminate_slots e shape.2.2.1 absent]
      have next : ((s.startCycle h d).state.ctxAt h).next = (s.ctxAt h).next := by
        rw [(HeadCtx.cycle_eq_iff.mp steps.own).2.2.1, State.entering_ctxAt, if_pos rfl]
        rfl
      have arming := (State.readyDesc_iff.mp hr).1
      obtain ⟨a, ha⟩ := HeadCtx.promoted_current ((hs.heads h).arming arming).1
      rw [next, HeadCtx.startable, if_neg (by rw [arming]; decide), HeadCtx.assignments, ha]
      simp
  · refine State.startable_lt (h := h) (fun i hi => by rw [others i hi]) ?_
    have pos := hs.startable_pos hr
    rw [show ((s.startCycle h d).state.ctxAt h).startable = 0 by rw [HeadCtx.startable, if_pos heating]]
    exact pos

/-- After the starts no head is ready (R52). -/
theorem State.Sound.startLoop_firstReady {n : Nat} (hs : s.Sound k) (ho : k.owes = false) (hk : ∀ j, k.mode j ≠ .homeless)
    (hn : s.startable ≤ n) : (Machine.startLoop n s).firstReady = none := by
  induction n generalizing s with
  | zero => exact hs.firstReady_of_startable (by omega)
  | succ n ih =>
    cases hf : s.firstReady with
    | none => simp [Machine.startLoop, hf]
    | some p =>
      have hr := State.firstReady_some hf
      have fewer := hs.finishStart_startable hk hr
      rw [startLoop_of_some hf]
      exact ih (hs.finishStart ho hk hr) (by omega)

/-! ### One head among the starts -/

/-- Where a bound head stands during the starts: as it was, or started on its start word. -/
structure State.StartsOr (s : State) (g : Head) (d : ClassDesc) (v : State) : Prop where
  stands : v.ctxAt g = s.ctxAt g ∧ v.intakeAt g = s.intakeAt g ∧ v.rowAt g = s.rowAt g ∨ s.CycleStarted v g d
  desc : v.boundDesc g = some d
  base : v.base = s.base

theorem State.StartsOr.binding {v : State} (h : s.StartsOr g d v) : (v.ctxAt g).binding.isSome = true := by
  have := h.desc
  unfold State.boundDesc at this
  cases hb : (v.ctxAt g).binding with
  | none => rw [hb] at this; cases this
  | some b => rfl

/-- The start of another head leaves it so; its own start is the start on its start word. -/
theorem State.StartsOr.step {v : State} (hv : s.StartsOr g d v) (hs : v.Sound k)
    (hk : ∀ j, k.mode j ≠ .homeless) (on : s.ReadyOn g d) (row : s.rowAt g = {}) {e : ClassDesc}
    (hr : v.readyDesc h = some e) : s.StartsOr g d ((v.startCycle h e).finish h) := by
  have store : v.store = s.store := congrArg Base.store hv.base
  have config : v.configAt g = s.configAt g := State.config_of_base hv.base g
  obtain ⟨-, -, -, range, kind, dwell⟩ := on
  by_cases hg : g = h
  · subst hg
    obtain ⟨arming, reqs, desc⟩ := State.readyDesc_iff.mp hr
    obtain rfl : d = e := Option.some.inj (hv.desc.symm.trans desc)
    have von : v.ReadyOn g d := ⟨arming, reqs, desc, range, by rw [store]; exact kind, by rw [store]; exact dwell⟩
    rcases hv.stands with ⟨ctx, intake, rows⟩ | started
    · rw [von.finish]
      refine ⟨.inr ⟨?_, ?_, ?_⟩, by rw [State.start_boundDesc]; exact hv.desc, hv.base⟩
      · rw [State.start_ctxAt, if_pos rfl]
        simp only [State.startedCtx, State.startingCtx, State.slotAfter, store, ctx, intake]
      · rw [State.start_intakeAt, if_pos rfl, intake, config]
      · rw [State.start_rowAt, if_pos rfl, rows, row, store]
    · have := started.1
      rw [this] at arming
      cases arming
  · have cap : (v.rowAt g).cap = none := by
      rcases hv.stands with ⟨-, -, rows⟩ | ⟨-, -, rows⟩
      · rw [rows, row]
      · rw [rows]
    obtain ⟨ctx, intake, rows, desc⟩ := hs.finishStart_spares hk hr hg hv.binding cap
    refine ⟨?_, by rw [desc]; exact hv.desc, by rw [State.finishStart_base]; exact hv.base⟩
    unfold State.CycleStarted
    rw [ctx, intake, rows]
    exact hv.stands

theorem State.StartsOr.loop {v : State} (hv : s.StartsOr g d v) (hs : v.Sound k) (ho : k.owes = false)
    (hk : ∀ j, k.mode j ≠ .homeless) (on : s.ReadyOn g d) (row : s.rowAt g = {}) (n : Nat) :
    s.StartsOr g d (startLoop n v) := by
  induction n generalizing v with
  | zero => exact hv
  | succ n ih =>
    cases hf : v.firstReady with
    | none =>
      have : startLoop (n + 1) v = v := by simp [startLoop, hf]
      rw [this]
      exact hv
    | some p =>
      have hr := State.firstReady_some hf
      rw [startLoop_of_some hf]
      exact ih (hv.step hs hk on row hr) (hs.finishStart ho hk hr)

/-- A head that is ready on a valid step with time to run is started, whatever becomes of the others (R52). -/
theorem State.Sound.startReady_starts (hs : s.Sound k) (ho : k.owes = false) (hk : ∀ j, k.mode j ≠ .homeless)
    (on : s.ReadyOn g d) : s.CycleStarted s.startReady g d := by
  have row : s.rowAt g = {} := (hs.power.resting g (by rw [on.1]; decide)).1
  have first : s.StartsOr g d s := ⟨.inl ⟨rfl, rfl, rfl⟩, on.2.2.1, rfl⟩
  obtain ⟨stands, desc, -⟩ := first.loop hs ho hk on row 32
  rcases stands with ⟨ctx, -⟩ | started
  · have none := State.firstReady_none_iff.mp (hs.startLoop_firstReady ho hk s.startable_le) g
    rw [State.readyDesc_iff.mpr ⟨by rw [ctx]; exact on.1, by rw [ctx]; exact on.2.1, desc⟩] at none
    cases none
  · exact started

end Sys2Proof.Machine
end

section
/-! The accounts of a carrier once a cycle of it has ended, and the closing test that follows (R59, R60, R140, R141). -/

namespace Sys2Proof.Machine

variable {s t u : State} {k : Flight} {h g : Head} {d : ClassDesc}

/-! ### The closing test where one entry closes -/

/-- The carrier record of an entry is offered and the entry closes (R60, R141). -/
def State.closeOne (s : State) (c : CarrierEntry) : State :=
  if s.queueHasRoom then
    { s with carriers := s.carriers.filter fun k => k.id ≠ c.id }.enterRecord (.carrier c.record)
  else s.modCarrier c.id fun k => { k with closing := true }

theorem State.closeOne_closes (s : State) (c x : CarrierEntry) : (s.closeOne c).closes x = s.closes x := by
  unfold State.closeOne
  split <;> rfl

/-- Where one entry alone closes, the closing test is that of this entry. -/
theorem closeEntries_of_one {cs : List CarrierEntry} {c : CarrierEntry} (hn : cs.Nodup) (hm : c ∈ cs)
    (closes : s.closes c = true) (others : ∀ x ∈ cs, x ≠ c → s.closes x = false) : closeEntries cs s = s.closeOne c := by
  induction cs with
  | nil => cases hm
  | cons x xs ih =>
    obtain ⟨hx, hxs⟩ := List.nodup_cons.mp hn
    by_cases hc : x = c
    · subst hc
      have rest : closeEntries (x :: xs) s = closeEntries xs (s.closeOne x) := by
        rw [closeEntries, if_pos closes]
        rfl
      rw [rest]
      refine closeEntries_of_none fun y hy => ?_
      rw [State.closeOne_closes]
      exact others y (List.mem_cons_of_mem _ hy) fun e => hx (e ▸ hy)
    · rw [closeEntries, others x List.mem_cons_self hc]
      exact ih hxs ((List.mem_cons.mp hm).resolve_left fun e => hc e.symm)
        fun y hy => others y (List.mem_cons_of_mem _ hy)

/-- The closing test changes carriers and the record queue alone. -/
theorem closeEntries_view {α : Type} {v : State → α} (cs : List CarrierEntry) (s : State)
    (enter : ∀ (u : State) (l : List CarrierEntry) (r : Record), v ({ u with carriers := l }.enterRecord r) = v u)
    (mark : ∀ (u : State) (id : CarrierId) (f : CarrierEntry → CarrierEntry), v (u.modCarrier id f) = v u) :
    v (closeEntries cs s) = v s := by
  induction cs generalizing s with
  | nil => rfl
  | cons c cs ih =>
    rw [closeEntries, ih]
    split
    · split
      · exact enter s _ _
      · exact mark s _ _
    · rfl

section
variable (s : State)

@[simp] theorem State.closeCarriers_ctxAt (j : Head) : s.closeCarriers.ctxAt j = s.ctxAt j :=
  closeEntries_view (v := fun u => u.ctxAt j) _ s (fun _ _ _ => rfl) fun _ _ _ => rfl
@[simp] theorem State.closeCarriers_intakeAt (j : Head) : s.closeCarriers.intakeAt j = s.intakeAt j :=
  closeEntries_view (v := fun u => u.intakeAt j) _ s (fun _ _ _ => rfl) fun _ _ _ => rfl
@[simp] theorem State.closeCarriers_rowAt (j : Head) : s.closeCarriers.rowAt j = s.rowAt j :=
  closeEntries_view (v := fun u => u.rowAt j) _ s (fun _ _ _ => rfl) fun _ _ _ => rfl
@[simp] theorem State.closeCarriers_cache : s.closeCarriers.cache = s.cache :=
  closeEntries_view (v := State.cache) _ s (fun _ _ _ => rfl) fun _ _ _ => rfl
@[simp] theorem State.closeCarriers_entryAt (e : EntryIx) : s.closeCarriers.entryAt e = s.entryAt e :=
  closeEntries_view (v := fun u => u.entryAt e) _ s (fun _ _ _ => rfl) fun _ _ _ => rfl
@[simp] theorem State.closeCarriers_ring : s.closeCarriers.ring = s.ring :=
  closeEntries_view (v := State.ring) _ s (fun _ _ _ => rfl) fun _ _ _ => rfl
@[simp] theorem State.closeCarriers_readyDesc (j : Head) : s.closeCarriers.readyDesc j = s.readyDesc j :=
  closeEntries_view (v := fun u => u.readyDesc j) _ s (fun _ _ _ => rfl) fun _ _ _ => rfl

end

/-! ### The closing test is complete -/

theorem closeEntries_settled {cs : List CarrierEntry} (hd : (s.carriers.map CarrierEntry.id).Nodup)
    (hm : ∀ c ∈ cs, c ∈ s.carriers) (hn : (cs.map CarrierEntry.id).Nodup)
    (done : ∀ c ∈ s.carriers, c ∉ cs → s.closes c = false) :
    ∀ c ∈ (closeEntries cs s).carriers, (closeEntries cs s).closes c = false := by
  induction cs generalizing s with
  | nil => exact fun c hc => done c hc (by simp)
  | cons x xs ih =>
    obtain ⟨hx, hxs⟩ := List.nodup_cons.mp (show (x.id :: xs.map CarrierEntry.id).Nodup from hn)
    have other {y : CarrierEntry} (hy : y ∈ xs) : y.id ≠ x.id := fun e => hx (List.mem_map.mpr ⟨y, hy, e⟩)
    have done' {c : CarrierEntry} (hc : c ∈ s.carriers) (hne : c ≠ x) (hcx : c ∉ xs) : s.closes c = false :=
      done c hc fun h => (List.mem_cons.mp h).elim hne hcx
    by_cases closes : s.closes x = true
    · have step : closeEntries (x :: xs) s = closeEntries xs (s.closeOne x) := by
        rw [closeEntries, if_pos closes]
        rfl
      rw [step]
      by_cases room : s.queueHasRoom = true
      · have carriers : (s.closeOne x).carriers = s.carriers.filter fun k => k.id ≠ x.id := by
          rw [State.closeOne, if_pos room]
          rfl
        refine ih ?_ (fun c hc => ?_) hxs fun c hc hcx => ?_
        · rw [carriers]
          exact hd.sublist (List.filter_sublist.map _)
        · rw [carriers]
          exact List.mem_filter.mpr ⟨hm c (List.mem_cons_of_mem _ hc), by simpa using other hc⟩
        · rw [carriers] at hc
          obtain ⟨hc, hid⟩ := List.mem_filter.mp hc
          rw [State.closeOne_closes]
          exact done' hc (fun e => by rw [e] at hid; simp at hid) hcx
      · have carriers : (s.closeOne x).carriers =
            s.carriers.map fun c => if c.id = x.id then { c with closing := true } else c := by
          rw [State.closeOne, if_neg room]
          rfl
        refine ih ?_ (fun c hc => ?_) hxs fun c hc hcx => ?_
        · have same : ((s.closeOne x).carriers.map CarrierEntry.id) = s.carriers.map CarrierEntry.id := by
            rw [carriers, List.map_map]
            refine List.map_congr_left fun c _ => ?_
            dsimp only [Function.comp]
            split <;> rfl
          rw [same]
          exact hd
        · rw [carriers]
          exact List.mem_map.mpr ⟨c, hm c (List.mem_cons_of_mem _ hc), if_neg (other hc)⟩
        · rw [carriers] at hc
          obtain ⟨y, hy, rfl⟩ := List.mem_map.mp hc
          rw [State.closeOne_closes]
          split
          · rfl
          · next hid =>
            rw [if_neg hid] at hcx
            exact done' hy (fun e => hid (by rw [e])) hcx
    · have closes : s.closes x = false := by simpa using closes
      have step : closeEntries (x :: xs) s = closeEntries xs s := by
        rw [closeEntries, closes]
        rfl
      rw [step]
      refine ih hd (fun c hc => hm c (List.mem_cons_of_mem _ hc)) hxs fun c hc hcx => ?_
      by_cases hne : c = x
      · rw [hne]
        exact closes
      · exact done' hc hne hcx

/-- After the closing test no entry closes (R60). -/
theorem State.Sound.closeCarriers_settled (hs : s.Sound k) :
    ∀ c ∈ s.closeCarriers.carriers, s.closeCarriers.closes c = false :=
  closeEntries_settled hs.books.carriers.2 (fun _ hc => hc) hs.books.carriers.2 fun _ hc hn => absurd hc hn

/-! ### The accounts of one end (R59) -/

/-- The entry of a carrier with the end of a cycle counted. -/
theorem CarrierEntry.ended_eq (c : CarrierEntry) (r : JointRecord) :
    (if c.id = r.carrier then c.ended r.outcome.cls else c) =
      { c with
        live := c.live - ([r].filter fun x => x.carrier = c.id).length
        good := c.good + ([r].filter fun x => decide (x.carrier = c.id) && decide (x.outcome.cls = .good)).length
        reject := c.reject + ([r].filter fun x => decide (x.carrier = c.id) && decide (x.outcome.cls = .reject)).length
        abort := c.abort + ([r].filter fun x => decide (x.carrier = c.id) && decide (x.outcome.cls = .abort)).length
        fault := c.fault + ([r].filter fun x => decide (x.carrier = c.id) && decide (x.outcome.cls = .fault)).length } := by
  by_cases hc : c.id = r.carrier
  · rw [if_pos hc]
    cases hk : r.outcome.cls <;> simp [CarrierEntry.ended, hc, hk]
  · have hc' : ¬ r.carrier = c.id := fun e => hc e.symm
    simp [hc, hc']

/-- The entries that close are those the accounts name, and each closes as it is written there. -/
theorem State.accounted_of {r : JointRecord} (hd : (s.carriers.map CarrierEntry.id).Nodup)
    (quiet : ∀ c ∈ s.carriers, s.closes c = false)
    (full : ∀ id, s.holdsRecordOf id = true → s.queueHasRoom = false)
    (carriers : u.carriers = s.carriers.map fun c => if c.id = r.carrier then c.ended r.outcome.cls else c)
    (queue : u.queue = if s.queueHasRoom then s.queue ++ [.joint r] else s.queue)
    (held : ∀ id, u.holdsRecordOf id = (s.holdsRecordOf id || (!s.queueHasRoom && decide (r.carrier = id)))) :
    s.Accounted u.closeCarriers [r] := by
  have distinct : (u.carriers.map CarrierEntry.id).Nodup := by
    have same : u.carriers.map CarrierEntry.id = s.carriers.map CarrierEntry.id := by
      rw [carriers, List.map_map]
      refine List.map_congr_left fun c _ => ?_
      dsimp only [Function.comp]
      split
      · unfold CarrierEntry.ended
        cases r.outcome.cls <;> rfl
      · rfl
    rw [same]
    exact hd
  have after := (carriers.trans (List.map_congr_left fun c _ => c.ended_eq r)).symm
  have room : (decide (0 < Config.recordCapacity - s.queue.length)) = s.queueHasRoom := by
    unfold State.queueHasRoom
    rw [decide_eq_decide]
    omega
  have dropped (id : CarrierId) :
      (([r].drop (Config.recordCapacity - s.queue.length)).any fun x => decide (x.carrier = id)) =
        (!s.queueHasRoom && decide (r.carrier = id)) := by
    rw [← room]
    cases Config.recordCapacity - s.queue.length <;> simp
  have closers : (u.carriers.filter fun c => decide (c.live = 0) && !c.closing &&
      ([r].any fun x => decide (x.carrier = c.id)) &&
      !(([r].drop (Config.recordCapacity - s.queue.length)).any fun x => decide (x.carrier = c.id))) =
        u.carriers.filter u.closes := by
    refine List.filter_congr fun c hc => ?_
    rw [dropped, State.closes, held]
    by_cases hid : r.carrier = c.id
    · have free : s.queueHasRoom = true → s.holdsRecordOf c.id = false := fun hr => by
        by_contra hh
        rw [full c.id (by simpa using hh)] at hr
        cases hr
      cases hr : s.queueHasRoom <;> simp [hid, Bool.and_comm]
      rw [free hr]
      simp
    · rw [carriers] at hc
      obtain ⟨x, hx, hxc⟩ := List.mem_map.mp hc
      have same : x = c := by
        rw [← hxc]
        split
        · next hxr =>
          rw [if_pos hxr] at hxc
          refine absurd ?_ hid
          rw [← hxc, ← hxr]
          unfold CarrierEntry.ended
          cases r.outcome.cls <;> rfl
        · rfl
      subst same
      have := quiet x hx
      rw [State.closes] at this
      simp [hid, this]
  unfold State.Accounted
  simp only [after, closers]
  have taken : ([r].take (Config.recordCapacity - s.queue.length)).map Record.joint =
      if s.queueHasRoom then [.joint r] else [] := by
    rw [← room]
    cases Config.recordCapacity - s.queue.length <;> simp
  have queued : s.queue ++ ([r].take (Config.recordCapacity - s.queue.length)).map Record.joint = u.queue := by
    rw [taken, queue]
    split <;> simp
  rw [queued]
  by_cases none : ∀ c ∈ u.carriers, u.closes c = false
  · have empty : u.carriers.filter u.closes = [] := List.filter_eq_nil_iff.mpr fun c hc => by simp [none c hc]
    rw [State.closeCarriers_of_none none, empty]
    simp
  · push Not at none
    obtain ⟨c, hc, closes⟩ := none
    have closes : u.closes c = true := by simpa using closes
    have named {x : CarrierEntry} (hx : x ∈ u.carriers) (hcx : u.closes x = true) :
        r.carrier = x.id ∧ s.queueHasRoom = true := by
      have mem : x ∈ u.carriers.filter u.closes := List.mem_filter.mpr ⟨hx, hcx⟩
      rw [← closers] at mem
      obtain ⟨-, conds⟩ := List.mem_filter.mp mem
      rw [dropped] at conds
      have conds : ((x.live = 0 ∧ x.closing = false) ∧ r.carrier = x.id) ∧ (s.queueHasRoom = true ∨ ¬r.carrier = x.id) := by
        simpa using conds
      exact ⟨conds.1.2, conds.2.resolve_right fun hne => hne conds.1.2⟩
    have unique {x : CarrierEntry} (hx : x ∈ u.carriers) (hcx : u.closes x = true) : x = c :=
      List.inj_on_of_nodup_map distinct hx hc ((named hx hcx).1.symm.trans (named hc closes).1)
    have one : u.carriers.filter u.closes = [c] := by
      have same : u.carriers.filter u.closes = u.carriers.filter (· == c) :=
        List.filter_congr fun x hx => by
          by_cases hxc : x = c
          · rw [hxc, closes]; simp
          · have : u.closes x = false := by
              by_contra hx'
              exact hxc (unique hx (by simpa using hx'))
            simp [this, hxc]
      rw [same, List.filter_beq, List.count_eq_one_of_mem (List.Nodup.of_map _ distinct) hc]
      rfl
    have closed : u.closeCarriers = u.closeOne c := closeEntries_of_one (List.Nodup.of_map _ distinct) hc closes
      fun x hx hxc => by
        by_contra hx'
        exact hxc (unique hx (by simpa using hx'))
    have left : (decide (0 < Config.recordCapacity - s.queue.length - [r].length)) = u.queueHasRoom := by
      have hr := (named hc closes).2
      unfold State.queueHasRoom at hr ⊢
      rw [queue, if_pos (by rw [State.queueHasRoom]; exact hr), decide_eq_decide]
      simp only [List.length_append, List.length_singleton]
      omega
    have byId {x : CarrierEntry} (hx : x ∈ u.carriers) : x.id = c.id ↔ x = c :=
      ⟨fun e => List.inj_on_of_nodup_map distinct hx hc e, fun e => by rw [e]⟩
    rw [closed, one]
    unfold State.closeOne
    by_cases hr : u.queueHasRoom = true
    · have enters : [c].take (Config.recordCapacity - s.queue.length - [r].length) = [c] := by
        rw [hr, decide_eq_true_eq] at left
        exact List.take_of_length_le left
      rw [if_pos hr, enters]
      refine ⟨rfl, ?_⟩
      show (u.carriers.filter fun k => k.id ≠ c.id) = _
      rw [List.filter_map]
      have kept : ((fun x : CarrierEntry => !([c].any fun k => decide (k.id = x.id))) ∘ fun x : CarrierEntry =>
          if x ∈ [c] then { x with closing := true } else x) = fun x => decide (x.id ≠ c.id) := by
        funext x
        dsimp only [Function.comp]
        split <;> simp [eq_comm]
      rw [kept]
      symm
      refine (List.map_congr_left fun x hx => ?_).trans (List.map_id _)
      obtain ⟨hx, hid⟩ := List.mem_filter.mp hx
      rw [if_neg]
      · rfl
      · intro hxc
        rw [List.mem_singleton.mp hxc] at hid
        simp at hid
    · have stays : [c].take (Config.recordCapacity - s.queue.length - [r].length) = [] := by
        have : Config.recordCapacity - s.queue.length - [r].length = 0 := by
          rw [Bool.not_eq_true] at hr
          rw [hr, decide_eq_false_iff_not] at left
          omega
        rw [this]
        rfl
      rw [if_neg hr, stays]
      refine ⟨by simp, ?_⟩
      rw [List.filter_eq_self.mpr fun x _ => by simp]
      show (u.carriers.map fun x => if x.id = c.id then { x with closing := true } else x) = _
      refine List.map_congr_left fun x hx => ?_
      simp [byId hx]

end Sys2Proof.Machine
end

section
/-! The lookup of a promotion in the words of the statements, and a promotion where no head waits for a class (R28 to R32,
R50). -/

namespace Sys2Proof.Machine

variable {s t u : State} {k : Flight} {h g : Head} {d : ClassDesc}

/-! ### The outcomes of a lookup, each from its condition -/

theorem bestVictim_congr (entries : ∀ e, t.entryAt e = s.entryAt e) (es : List EntryIx) :
    bestVictim t es = bestVictim s es := by
  induction es with
  | nil => rfl
  | cons e es ih => simp only [bestVictim, ih, entries]

theorem State.victim_congr (entries : ∀ e, t.entryAt e = s.entryAt e) : t.victim = s.victim := by
  simp only [State.victim, bestVictim_congr entries, entries]

theorem State.tryBind_resident {c : ClassId} {r : Bool} {e : EntryIx} {tag : ClassId} (hm : s.matchEntry c = some e)
    (body : (s.entryAt e).body = .resident tag d) (keep : ¬ (r = true ∧ (s.entryAt e).users = 0)) :
    s.tryBind h c r = some { state := s.bindTo h e (variantOf c tag), resident := true } := by
  have : ¬ (r && decide ((s.entryAt e).users = 0)) = true := by simpa using keep
  simp only [State.tryBind, hm, body]
  rw [if_neg this]

theorem State.tryBind_fetching {c : ClassId} {r : Bool} {e : EntryIx} {tag : ClassId} {n : Nat}
    (hm : s.matchEntry c = some e) (body : (s.entryAt e).body = .fetching tag n) :
    s.tryBind h c r = some { state := s.bindTo h e 0, resident := false } := by
  simp only [State.tryBind, hm, body]

theorem State.tryBind_refresh {c : ClassId} {r : Bool} {e : EntryIx} (hm : s.matchEntry c = some e)
    (resident : (s.entryAt e).body.isResident = true) (asked : r = true) (users : (s.entryAt e).users = 0) :
    s.tryBind h c r = (s.invalidate e).bindMiss h c := by
  cases body : (s.entryAt e).body with
  | resident tag d =>
    simp only [State.tryBind, hm, body]
    rw [if_pos (by simp [asked, users])]
  | fetching tag n => rw [body] at resident; cases resident
  | invalid => rw [body] at resident; cases resident

theorem State.tryBind_miss {c : ClassId} {r : Bool} (hm : s.matchEntry c = none) : s.tryBind h c r = s.bindMiss h c := by
  simp only [State.tryBind, hm]

/-- The victim after an idle entry has become INVALID: the INVALID entry of the lowest index. -/
theorem State.invalidate_victim (s : State) (e : EntryIx) : ∃ v, (s.invalidate e).victim = some v ∧ v ≤ e ∧
    (v = e ∨ (s.entryAt v).body = .invalid) ∧ ∀ f, f < v → (s.entryAt f).body ≠ .invalid := by
  have own : ((s.invalidate e).entryAt e).body.isInvalid = true := by
    rw [State.invalidate_entryAt, if_pos rfl]
    rfl
  cases hf : allEntries.find? fun f => ((s.invalidate e).entryAt f).body.isInvalid with
  | none =>
    have := List.find?_eq_none.mp hf e (mem_allEntries e)
    exact absurd own this
  | some v =>
    have first (f : EntryIx) (hlt : f < v) : ((s.invalidate e).entryAt f).body.isInvalid = false := by
      obtain ⟨-, i, hi, hv, before⟩ := List.find?_eq_some_iff_getElem.mp hf
      have at' (j : Nat) (hj : j < allEntries.length) : allEntries[j].val = j := by
        have hj' : j < 8 := hj
        interval_cases j <;> rfl
      have hfv : f.val < i := by
        have := at' i hi
        rw [hv] at this
        rw [← this]
        exact hlt
      have hlen : f.val < allEntries.length := Nat.lt_trans hfv hi
      have := before f.val hfv
      have here : allEntries[f.val] = f := Fin.ext (at' f.val hlen)
      rw [here] at this
      simpa using this
    have found : (s.invalidate e).victim = some v := by simp only [State.victim, hf]
    refine ⟨v, found, ?_, ?_, fun f hlt inv => ?_⟩
    · by_contra hle
      have := first e (not_le.mp hle)
      rw [own] at this
      cases this
    · by_cases hve : v = e
      · exact .inl hve
      · right
        have inv := List.find?_some hf
        rw [State.invalidate_entryAt, if_neg hve] at inv
        cases body : (s.entryAt v).body with
        | invalid => rfl
        | fetching => rw [body] at inv; cases inv
        | resident => rw [body] at inv; cases inv
    · have := first f hlt
      rw [State.invalidate_entryAt] at this
      split at this
      · cases this
      · rw [inv] at this
        cases this

/-- The entries once a victim has been made FETCHING for a head (R30, R31). -/
theorem State.fetchInto_entryAt (s : State) (h : Head) (c : ClassId) (v f : EntryIx) :
    (s.fetchInto h c v).entryAt f = if f = v then { body := .fetching c s.cache.fetchLimit, users := 1, recency := 0 }
      else { s.entryAt f with recency := s.touchedAt v f } := by
  have recency (g : EntryIx) : ((s.modEntry v fun x => { x with body := .fetching c s.cache.fetchLimit, users := 0 }).entryAt
      g).recency = (s.entryAt g).recency := by
    rw [State.modEntry_entryAt]
    split
    · next hg => rw [hg]
    · rfl
  rw [State.fetchInto_eq, State.offerFetch_entryAt, State.fetched, State.bindTo_entryAt, State.hitAt]
  simp only [State.touchedAt, recency]
  by_cases hf : f = v
  · subst hf
    simp
  · simp [hf, State.modEntry_entryAt_of_ne _ hf]

theorem State.bindTo_binding (s : State) (h : Head) (e : EntryIx) (v : Nat) :
    ((s.bindTo h e v).ctxAt h).binding = some { entry := e, variant := v } := by
  rw [State.bindTo_ctxAt, if_pos rfl]

theorem State.fetchInto_binding (s : State) (h : Head) (c : ClassId) (v : EntryIx) :
    ((s.fetchInto h c v).ctxAt h).binding = some { entry := v, variant := 0 } := by
  rw [State.fetchInto_eq, State.offerFetch_ctxAt]
  exact State.bindTo_binding _ h v 0

/-- A CLASSFETCH is placed where the cell controller has an address and the general queue a free place beside a reserved
one. -/
theorem State.fetchInto_asks {h : Head} {c : ClassId} {v : EntryIx} (cc : s.ring.cc ≠ 0) (room : s.ring.general.length < 7) :
    s.ccFrame 0x06 (be16 c.toNat) ∈ (s.fetchInto h c v).ring.general := by
  have reachable : (s.fetched h c v).ccReachable = true := by
    have ring : (s.fetched h c v).ring = s.ring := rfl
    unfold State.ccReachable RingPort.hasPlace
    rw [ring]
    have : s.ring.reserved.toNat ≤ 1 := Bool.toNat_le _
    rw [Bool.and_eq_true]
    refine ⟨by simpa using cc, decide_eq_true ?_⟩
    show s.ring.general.length + s.ring.reserved.toNat < 8
    omega
  rw [State.fetchInto_eq, State.offerFetch, if_pos reachable]
  exact List.mem_append_right _ (List.mem_singleton.mpr rfl)

/-! ### The lookup in the words of the statements -/

/-- A lookup on a state with the entries of `s`, and what follows from its outcome. -/
theorem State.looksUp_of {c : ClassId} {r : Bool} {bind : Binding → Bool → Prop} {waits : Prop} (one : s.OneMatch)
    (entries : ∀ e, u.entryAt e = s.entryAt e) (limit : u.cache.fetchLimit = s.cache.fetchLimit)
    (cc : u.ring.cc = s.ring.cc) (own : u.ring.own = s.ring.own) (general : u.ring.general = s.ring.general)
    (found : ∀ b x, u.tryBind h c r = some b → (b.state.ctxAt h).binding = some x →
      bind x b.resident ∧ (∀ f, t.entryAt f = b.state.entryAt f) ∧ ∀ f ∈ b.state.ring.general, f ∈ t.ring.general)
    (starved : u.tryBind h c r = none → waits ∧ ∀ f, t.entryAt f = s.entryAt f) : s.LooksUp t c r bind waits := by
  have one' : u.OneMatch := by
    unfold State.OneMatch
    simp only [entries]
    exact one
  have touched (e f : EntryIx) : u.touchedAt e f = s.touchedAt e f := by simp only [State.touchedAt, entries]
  have matched {e : EntryIx} (he : (s.entryAt e).body.matchesId c = true) : u.matchEntry c = some e :=
    State.matchEntry_of_one one' (by rw [entries]; exact he)
  have asks (w : State) (ring : w.ring = u.ring) (v : EntryIx) (hcc : s.ring.cc ≠ 0) (room : s.ring.general.length < 7) :
      ({ dest := s.ring.cc, src := s.ring.own, kind := 0x06, tag := 0, payload := be16 c.toNat } : Frame) ∈
        (w.fetchInto h c v).ring.general := by
    have := State.fetchInto_asks (s := w) (h := h) (c := c) (v := v) (by rw [ring, cc]; exact hcc)
      (by rw [ring, general]; exact room)
    rw [State.ccFrame, ring, cc, own] at this
    exact this
  refine ⟨fun e tag d body hit keep => ?_, fun e n body => ?_, fun e asked resident hit users => ?_, fun miss => ⟨fun v hv => ?_, fun hv => ?_⟩⟩
  · have bound := State.tryBind_resident (s := u) (h := h) (r := r) (matched hit) (by rw [entries]; exact body)
      (by rw [entries]; exact keep)
    obtain ⟨binds, same, -⟩ := found _ _ bound (State.bindTo_binding _ _ _ _)
    refine ⟨binds, fun f => ?_⟩
    rw [same, State.bindTo_entryAt, State.hitAt, entries, touched]
  · have hit : (s.entryAt e).body.matchesId c = true := by rw [body, EntryBody.fetching_matches]
    have bound := State.tryBind_fetching (s := u) (h := h) (r := r) (matched hit) (by rw [entries]; exact body)
    obtain ⟨binds, same, -⟩ := found _ _ bound (State.bindTo_binding _ _ _ _)
    refine ⟨binds, fun f => ?_⟩
    rw [same, State.bindTo_entryAt, State.hitAt, entries, touched]
  · obtain ⟨v, victim, le, place, first⟩ := u.invalidate_victim e
    have bound : u.tryBind h c r = some { state := (u.invalidate e).fetchInto h c v, resident := false } := by
      rw [State.tryBind_refresh (matched hit) (by rw [entries]; exact resident) asked (by rw [entries]; exact users),
        State.bindMiss, victim]
      rfl
    obtain ⟨binds, same, places⟩ := found _ _ bound (State.fetchInto_binding _ _ _ _)
    rw [entries] at place
    refine ⟨v, le, place, fun f hf => by rw [← entries]; exact first f hf, binds, fun hcc room => places _ (asks (u.invalidate e) rfl v hcc room),
      fun f => ?_⟩
    have limit' : (u.invalidate e).cache.fetchLimit = s.cache.fetchLimit := limit
    have recency (g : EntryIx) : ((u.invalidate e).entryAt g).recency = (s.entryAt g).recency := by
      rw [State.invalidate_entryAt]
      split
      · next hg => rw [hg, entries]
      · rw [entries]
    have touched' : (u.invalidate e).touchedAt v f = s.touchedAt v f := by simp only [State.touchedAt, recency]
    rw [same, State.fetchInto_entryAt, limit', touched', State.invalidate_entryAt]
    by_cases hfv : f = v
    · rw [if_pos hfv, if_pos hfv]
    · rw [if_neg hfv, if_neg hfv]
      split <;> simp [entries]
  · have bound : u.tryBind h c r = some { state := u.fetchInto h c v, resident := false } := by
      rw [State.tryBind_miss (State.matchEntry_none_iff.mpr fun e => by rw [entries]; exact miss e), State.bindMiss,
        State.victim_congr entries, hv]
      rfl
    obtain ⟨binds, same, places⟩ := found _ _ bound (State.fetchInto_binding _ _ _ _)
    refine ⟨binds, fun hcc room => places _ (asks u rfl v hcc room), fun f => ?_⟩
    rw [same, State.fetchInto_entryAt, limit, touched, entries]
  · refine starved ?_
    rw [State.tryBind_miss (State.matchEntry_none_iff.mpr fun e => by rw [entries]; exact miss e), State.bindMiss,
      State.victim_congr entries, hv]
    rfl

/-! ### A promotion where no head waits (R50, R32) -/

/-- The head in ARMING with its assignment promoted, not looked up yet. -/
def State.arming (s : State) (h : Head) (a : Assignment) : State :=
  s.modCtx h fun c => { c with state := .arming, current := some { asg := a, promoted := true } }

/-- A head takes the requirements of its assignment, and no retry is owed any longer. -/
def State.required (s : State) (h : Head) (a : Assignment) (resident : Bool) : State :=
  (s.modCtx h fun c => { c with reqs := some (s.requirementsFor h a resident) }).pay

/-- The head in ARMING and in the cache-wait list (R32). -/
def State.starving (s : State) (h : Head) (a : Assignment) : State := (s.arming h a).setWait [⟨h, a.classId, a.refresh⟩]

theorem State.starving_base (s : State) (h : Head) (a : Assignment) : (s.starving h a).base = s.base := rfl
theorem State.starving_carriers (s : State) (h : Head) (a : Assignment) : (s.starving h a).carriers = s.carriers := rfl
theorem State.starving_entryAt (s : State) (h : Head) (a : Assignment) (e : EntryIx) :
    (s.starving h a).entryAt e = (s.arming h a).entryAt e := rfl
theorem State.starving_ctxAt (s : State) (h j : Head) (a : Assignment) :
    (s.starving h a).ctxAt j = (s.arming h a).ctxAt j := rfl
theorem State.starving_wait (s : State) (h : Head) (a : Assignment) :
    (s.starving h a).cache.wait = [⟨h, a.classId, a.refresh⟩] := rfl

theorem State.pay_ctxAt (s : State) (j : Head) : s.pay.ctxAt j = s.ctxAt j := rfl

theorem State.required_ctxAt (s : State) (h j : Head) (a : Assignment) (r : Bool) : (s.required h a r).ctxAt j =
    if j = h then { s.ctxAt h with reqs := some (s.requirementsFor h a r) } else s.ctxAt j := by
  rw [State.required, State.pay_ctxAt, State.modCtx_ctxAt]

theorem State.required_entryAt (s : State) (h : Head) (a : Assignment) (r : Bool) (e : EntryIx) :
    (s.required h a r).entryAt e = s.entryAt e := rfl

theorem State.required_wait (s : State) (h : Head) (a : Assignment) (r : Bool) :
    (s.required h a r).cache.wait = s.cache.wait := rfl

theorem State.arming_ctxAt (s : State) (h j : Head) (a : Assignment) : (s.arming h a).ctxAt j =
    if j = h then { s.ctxAt h with state := .arming, current := some { asg := a, promoted := true } } else s.ctxAt j := by
  rw [State.arming, State.modCtx_ctxAt]

theorem State.promote_of_bound {a : Assignment} {p : Bool} {b : Bound} (hw : s.cache.wait = [])
    (hc : (s.ctxAt h).current = some ⟨a, p⟩) (hb : (s.arming h a).tryBind h a.classId a.refresh = some b) :
    s.promote h = b.state.required h a b.resident := by
  have wait : (b.state.modCtx h fun c => { c with reqs := some (b.state.requirementsFor h a b.resident) }).cache.wait = [] :=
    (State.tryBind_boundFrom hb).wait.trans hw
  have bound : (s.arming h a).bindRequest h a.classId a.refresh = b := by simp only [State.bindRequest, hb]
  unfold State.promote
  simp only [hc]
  have same : (s.modCtx h fun c => { c with state := .arming, current := some ⟨a, true⟩ }) = s.arming h a := rfl
  rw [same, bound, State.runRetry_of_no_wait wait]
  rfl

theorem State.promote_of_starved {a : Assignment} {p : Bool} (hw : s.cache.wait = [])
    (hc : (s.ctxAt h).current = some ⟨a, p⟩) (hb : (s.arming h a).tryBind h a.classId a.refresh = none) :
    s.promote h = (s.starving h a).required h a false := by
  have request : (s.arming h a).bindRequest h a.classId a.refresh =
      { state := (s.arming h a).setWait [⟨h, a.classId, a.refresh⟩], resident := false } := by
    have wait : (s.arming h a).cache.wait = [] := hw
    simp only [State.bindRequest, hb]
    unfold State.setWait
    congr 1
    unfold State.modCache
    simp [wait]
  unfold State.promote
  simp only [hc]
  have same : (s.modCtx h fun c => { c with state := .arming, current := some ⟨a, true⟩ }) = s.arming h a := rfl
  rw [same, request]
  generalize hx : (((s.arming h a).setWait [⟨h, a.classId, a.refresh⟩]).modCtx h fun c =>
    { c with reqs := some (((s.arming h a).setWait [⟨h, a.classId, a.refresh⟩]).requirementsFor h a false) }) = x
  have required : (s.starving h a).required h a false = x.pay := by rw [← hx]; rfl
  have entries (e : EntryIx) : x.entryAt e = (s.arming h a).entryAt e := by rw [← hx]; rfl
  have wait : x.cache.wait = [⟨h, a.classId, a.refresh⟩] := by rw [← hx]; rfl
  have lookup := (s.arming h a).lookup h a.classId a.refresh
  rw [hb] at lookup
  cases lookup with
  | starved miss victim =>
    have none : x.tryBind h a.classId a.refresh = none := by
      rw [State.tryBind_miss (State.matchEntry_none_iff.mpr fun e => by rw [entries]; exact miss e), State.bindMiss,
        State.victim_congr entries, victim]
      rfl
    rw [required]
    unfold State.runRetry
    split
    · rw [wait, retryWaiters]
      simp only [none]
      show (x.setWait _).pay = x.pay
      rw [← wait, State.setWait_self]
    · next owed =>
      have : x.pay = x := by
        unfold State.pay State.modCache
        have : x.cache.retryOwed = false := by simpa using owed
        rw [← this]
      rw [this]

end Sys2Proof.Machine
end

section
/-! The termination of a cycle in the words of the statements, where no head waits for a class (R59, R60, R71 to R74, R132). -/

namespace Sys2Proof.Machine

variable {s t u v : State} {k : Flight} {h g : Head} {d : ClassDesc}

/-! ### Placing a STOP frame (R132, R157) -/

/-- The frame placed is the frame of its head. -/
theorem find_placeIn {fs : List DriveFrame} {f : DriveFrame} (stop : f.source = .stop) (feed : f.feedLen = none) :
    (placeIn fs f).find? (fun g => decide (g.head = f.head)) = some f := by
  have carried (g : DriveFrame) : ({ f with feedLen := carriedFeed g f } : DriveFrame) = f := by
    unfold carriedFeed
    rw [if_pos stop, ← feed]
  induction fs with
  | nil => simp [placeIn]
  | cons g gs ih =>
    unfold placeIn
    split
    · rw [carried]
      simp
    · next hg => simpa [List.find?_cons, hg] using ih

/-- The frames of the other heads stay as they are. -/
theorem filter_placeIn (fs : List DriveFrame) (f : DriveFrame) :
    (placeIn fs f).filter (fun g => decide (g.head ≠ f.head)) = fs.filter fun g => decide (g.head ≠ f.head) := by
  induction fs with
  | nil => simp [placeIn]
  | cons g gs ih =>
    unfold placeIn
    split
    · next hg => simp [hg]
    · simp only [List.filter_cons, ih]

theorem Row.released_eq (h : Head) (r : Row) : r.released h = { r with cap := r.cap.filter fun c => c.claimant ≠ h } := by
  obtain ⟨demand, grant, tier, cap⟩ := r
  unfold Row.released
  cases cap with
  | none => rfl
  | some c => by_cases hc : c.claimant = h <;> simp [hc, Option.filter]

/-! ### The new state of the head (R74, R79) -/

theorem causeOf_eq_none_iff (o : CycleOutcome) : causeOf o = none ↔ o.cls ≠ .fault := by
  cases o <;> simp [causeOf, CycleOutcome.cls]

/-- The head at rest after its cycle: in its new state with its cause, nothing owed. -/
def State.rested (s : State) (h : Head) (e : Ending) : State :=
  ((s.ended h e).modCtx h fun c =>
    { c with state := endedState e.outcome s.queueHasRoom, cause := causeOf e.outcome }).pay

theorem State.rested_ctxAt (s : State) (h j : Head) (e : Ending) : (s.rested h e).ctxAt j =
    if j = h then { s.endedCtx h e with state := endedState e.outcome s.queueHasRoom, cause := causeOf e.outcome }
    else s.ctxAt j := by
  rw [State.rested, State.pay_ctxAt, State.modCtx_ctxAt, State.ended_ctxAt, State.ended_ctxAt, if_pos rfl]
  split <;> rfl

theorem State.rested_entryAt (s : State) (h : Head) (e : Ending) (f : EntryIx) :
    (s.rested h e).entryAt f = (s.freed h).entryAt f := s.ended_entryAt h e f

theorem State.rested_cache (s : State) (h : Head) (e : Ending) :
    (s.rested h e).cache.wait = (s.ended h e).cache.wait ∧ (s.rested h e).cache.retryOwed = false := ⟨rfl, rfl⟩

section
variable (e : Ending) (hw : v.cache.wait = []) (reqs : (v.ctxAt h).reqs = none) (cause : (v.ctxAt h).cause = none)
include hw reqs

/-- With a next assignment behind a head that would be IDLE the termination promotes it. -/
theorem State.terminate_promotes {b : Assignment} (next : (v.ctxAt h).next = some b)
    (idle : endedState e.outcome v.queueHasRoom = .idle) : v.terminate h e = (v.ended h e).promote h := by
  have kind : causeOf e.outcome = none := by
    rw [causeOf_eq_none_iff]
    intro fault
    rw [endedState, if_pos fault] at idle
    cases idle
  have room : v.queueHasRoom = true := by
    rw [endedState, if_neg ((causeOf_eq_none_iff _).mp kind)] at idle
    by_contra hr
    rw [if_neg hr] at idle
    cases idle
  rw [State.terminate_eq e reqs (by simp [hw]), kind]
  dsimp only
  rw [if_pos room, State.nextWork, if_pos]
  rw [State.ended_ctxAt, if_pos rfl]
  simp [State.endedCtx, HeadCtx.vacated, HeadCtx.advance, HeadCtx.terminated, next]

include cause

/-- Otherwise the head comes to rest. -/
theorem State.terminate_rests (rest : (v.ctxAt h).next = none ∨ endedState e.outcome v.queueHasRoom ≠ .idle) :
    (v.terminate h e).Like (v.rested h e) := by
  have wait : (v.ended h e).cache.wait = [] := by rw [State.ended_wait, hw]; rfl
  have wait' (f : HeadCtx → HeadCtx) : ((v.ended h e).modCtx h f).cache.wait = [] := wait
  have waitF (f : HeadCtx → HeadCtx) : ((v.ended h e).modCtx h f).reportFault.cache.wait = [] := wait
  have free : ((v.ended h e).ctxAt h).cause = none := by
    rw [State.ended_ctxAt, if_pos rfl]
    exact cause
  rw [State.terminate_eq e reqs (by simp [hw]), State.rested]
  cases hc : causeOf e.outcome with
  | some c =>
    have fault : e.outcome.cls = .fault := by
      by_contra hne
      rw [(causeOf_eq_none_iff _).mpr hne] at hc
      cases hc
    simp only [endedState, if_pos fault]
    rw [State.runRetry_of_no_wait (waitF _)]
    exact (State.like_reportFault _).map (op := State.pay) fun _ => rfl
  | none =>
    have kind := (causeOf_eq_none_iff _).mp hc
    have same (st : HeadState) : ((v.ended h e).modCtx h fun c => { c with state := st, cause := none }) =
        (v.ended h e).modCtx h fun c => { c with state := st } := State.modCtx_congr (by simp [free])
    simp only [endedState, if_neg kind]
    rw [same]
    split
    · next room =>
      have none : (v.ctxAt h).next = none := by
        refine rest.resolve_right fun hne => hne ?_
        rw [endedState, if_neg kind, if_pos room]
      have empty : ((v.ended h e).ctxAt h).current.isSome = false := by
        rw [State.ended_ctxAt, if_pos rfl]
        simp [State.endedCtx, HeadCtx.vacated, HeadCtx.advance, HeadCtx.terminated, none]
      rw [State.nextWork, empty, if_neg (by decide), State.runRetry_of_no_wait (wait' _)]
      exact .refl _
    · rw [State.runRetry_of_no_wait (wait' _)]
      exact .refl _

end

end Sys2Proof.Machine
end

section
/-! A termination with its closing test leaves what the statements say of the end of a cycle (R59, R60, R71 to R74, R132). -/

namespace Sys2Proof.Machine

variable {s t u v : State} {k : Flight} {h g : Head} {d : ClassDesc}

/-- The state in which a cycle ends, as a statement names it and as the work finds it: the intake and the row of the head,
which the end clears, and the reserved place may differ. -/
structure State.EndsFrom (s v : State) (h : Head) : Prop where
  ctx : ∀ j, v.ctxAt j = s.ctxAt j
  intake : ∀ j, j ≠ h → v.intakeAt j = s.intakeAt j
  own : ({ v.intakeAt h with staleTimer := none } : Intake) = { s.intakeAt h with staleTimer := none }
  rows : ∀ j, j ≠ h → v.rowAt j = s.rowAt j
  cache : v.cache = s.cache
  carriers : v.carriers = s.carriers
  queue : v.queue = s.queue
  base : v.base = s.base
  ring : v.ring = { s.ring with reserved := v.ring.reserved }

theorem State.EndsFrom.refl (s : State) (h : Head) : s.EndsFrom s h :=
  ⟨fun _ => rfl, fun _ _ => rfl, rfl, fun _ _ => rfl, rfl, rfl, rfl, rfl, rfl⟩

/-- The context in which the end of its cycle leaves a head. -/
def State.restCtx (s : State) (h : Head) (d : ClassDesc) (r : JointRecord) : HeadCtx :=
  { s.ctxAt h with
    state := endedState r.outcome s.queueHasRoom
    current := (s.ctxAt h).next.map fun b => { asg := b, promoted := false }
    next := none, binding := none, reqs := none, prefetch := .empty, stepTimer := none, feedBaseline := none,
    feedOwed := false, tStart := none, iAcc := 0, limited := false, sampleMark := none, dstatMark := none
    settle := if d.settle = 0 then none else some d.settle
    cause := causeOf r.outcome
    heldRecord := if s.queueHasRoom then none else some r }

/-- What the work of one end leaves everywhere but in the head itself, its entry and the cache-wait list. -/
structure State.Ends (v t : State) (h : Head) (e : Ending) : Prop where
  like : (v.terminate h e).closeCarriers.Like t
  places : ∀ f ∈ (v.terminate h e).ring.general, f ∈ t.ring.general

section
variable (hv : v.Sound k) (ho : k.owes = false) (hk : ∀ j, k.mode j ≠ .homeless) (slots : k.slots = 0)
  (heating : (v.ctxAt h).state = .heating) (wait : v.cache.wait = []) {a : Assignment}
  (current : (v.ctxAt h).current = some ⟨a, true⟩) (hd : v.boundDesc h = some d) (e : Ending)

include hv heating in
/-- The context of the head as its cycle ends, with its new state and cause. -/
theorem State.Sound.endedCtx_eq (hd : v.boundDesc h = some d) (e : Ending) :
    ({ v.endedCtx h e with state := endedState e.outcome v.queueHasRoom, cause := causeOf e.outcome } : HeadCtx) =
      v.restCtx h d (v.jointRecord h e) := by
  obtain ⟨-, -, reqs, cause, held⟩ := (hv.heads h).heating heating
  simp only [State.endedCtx, State.restCtx, HeadCtx.vacated, HeadCtx.advance, HeadCtx.terminated, State.settleOf, hd, held,
    State.jointRecord, Option.map_some, Option.getD_some]

include hv heating wait in
/-- The other heads keep their contexts. -/
theorem State.Sound.terminate_others {j : Head} (hj : j ≠ h) (e : Ending) : (v.terminate h e).ctxAt j = v.ctxAt j := by
  obtain ⟨-, -, reqs, cause, -⟩ := (hv.heads h).heating heating
  have ended : (v.ended h e).ctxAt j = v.ctxAt j := by rw [State.ended_ctxAt, if_neg hj]
  have empty : (v.ended h e).cache.wait = [] := by rw [State.ended_wait, wait]; rfl
  by_cases rest : (v.ctxAt h).next = none ∨ endedState e.outcome v.queueHasRoom ≠ .idle
  · rw [(State.terminate_rests e wait reqs cause rest).ctxAt, State.rested_ctxAt, if_neg hj]
  · push Not at rest
    obtain ⟨next, idle⟩ := rest
    obtain ⟨b, next⟩ := Option.ne_none_iff_exists'.mp next
    have slot : ((v.ended h e).ctxAt h).current = some ⟨b, false⟩ := by
      rw [State.ended_ctxAt, if_pos rfl]
      simp [State.endedCtx, HeadCtx.vacated, HeadCtx.advance, HeadCtx.terminated, next]
    have armed : ((v.ended h e).arming h b).ctxAt j = v.ctxAt j := by
      rw [State.arming_ctxAt, if_neg hj, ended]
    rw [State.terminate_promotes e wait reqs next idle]
    cases hb : ((v.ended h e).arming h b).tryBind h b.classId b.refresh with
    | none =>
      rw [State.promote_of_starved empty slot hb, State.required_ctxAt, if_neg hj, State.starving_ctxAt, armed]
    | some x =>
      rw [State.promote_of_bound empty slot hb]
      obtain ⟨y, ctx⟩ := (State.tryBind_boundFrom hb).ctx
      have := ctx j
      rw [if_neg hj] at this
      rw [State.required_ctxAt, if_neg hj, this, armed]

include hv heating wait in
/-- No retry is owed after a termination. -/
theorem State.Sound.terminate_retryOwed (e : Ending) : (v.terminate h e).cache.retryOwed = false := by
  obtain ⟨-, -, reqs, cause, -⟩ := (hv.heads h).heating heating
  have empty : (v.ended h e).cache.wait = [] := by rw [State.ended_wait, wait]; rfl
  by_cases rest : (v.ctxAt h).next = none ∨ endedState e.outcome v.queueHasRoom ≠ .idle
  · rw [(State.terminate_rests e wait reqs cause rest).cache]
    exact (v.rested_cache h e).2
  · push Not at rest
    obtain ⟨next, idle⟩ := rest
    obtain ⟨b, next⟩ := Option.ne_none_iff_exists'.mp next
    have slot : ((v.ended h e).ctxAt h).current = some ⟨b, false⟩ := by
      rw [State.ended_ctxAt, if_pos rfl]
      simp [State.endedCtx, HeadCtx.vacated, HeadCtx.advance, HeadCtx.terminated, next]
    rw [State.terminate_promotes e wait reqs next idle]
    cases hb : ((v.ended h e).arming h b).tryBind h b.classId b.refresh with
    | none => rw [State.promote_of_starved empty slot hb]; rfl
    | some x => rw [State.promote_of_bound empty slot hb]; rfl

end

end Sys2Proof.Machine
end

section
/-! The promotion that a termination brings, and the termination as a whole, in the words of the statements (R50, R71 to
R74). -/

namespace Sys2Proof.Machine

variable {s t u v : State} {k : Flight} {h g : Head} {d : ClassDesc}

theorem CarrierEntry.ended_marks (c : CarrierEntry) (o : OutcomeClass) :
    (c.ended o).id = c.id ∧ (c.ended o).purge = c.purge ∧ (c.ended o).released = c.released := by
  cases o <;> exact ⟨rfl, rfl, rfl⟩

/-- The marks of a carrier that a promotion reads are not those a termination counts. -/
theorem carriers_any_ended (cs : List CarrierEntry) (id i : CarrierId) (o : OutcomeClass) (p : CarrierEntry → Bool)
    (hp : ∀ c : CarrierEntry, p (c.ended o) = p c) :
    ((cs.map fun c => if c.id = i then c.ended o else c).find? fun c => decide (c.id = id)).any p =
      (cs.find? fun c => decide (c.id = id)).any p := by
  induction cs with
  | nil => rfl
  | cons c cs ih =>
    have same : (if c.id = i then c.ended o else c).id = c.id := by
      split
      · exact (c.ended_marks o).1
      · rfl
    simp only [List.map_cons, List.find?_cons, same]
    split
    · simp only [Option.any_some]
      split
      · exact hp c
      · rfl
    · exact ih

section
variable (hv : v.Sound k) (heating : (v.ctxAt h).state = .heating) (wait : v.cache.wait = [])
  (hd : v.boundDesc h = some d) (e : Ending)
include hv heating wait hd

/-- A termination with a next assignment behind it that is promoted (R74, R50). -/
theorem State.Sound.terminate_promoted (same : s.EndsFrom v h) {b : Assignment} (next : (v.ctxAt h).next = some b)
    (idle : endedState e.outcome v.queueHasRoom = .idle) (ends : v.Ends t h e) :
    (s.freed h).Promoted t h b (s.restCtx h d (v.jointRecord h e)) := by
  obtain ⟨-, -, reqs, cause, held⟩ := (hv.heads h).heating heating
  have kind : causeOf e.outcome = none := by
    rw [causeOf_eq_none_iff]
    intro fault
    rw [endedState, if_pos fault] at idle
    cases idle
  have empty : (v.ended h e).cache.wait = [] := by rw [State.ended_wait, wait]; rfl
  have room : v.queueHasRoom = s.queueHasRoom := by unfold State.queueHasRoom; rw [same.queue]
  have rest : s.restCtx h d (v.jointRecord h e) = v.restCtx h d (v.jointRecord h e) := by
    unfold State.restCtx
    rw [same.ctx, room]
  have own : (v.ended h e).ctxAt h = v.restCtx h d (v.jointRecord h e) := by
    have outcome : (v.jointRecord h e).outcome = e.outcome := rfl
    rw [State.ended_ctxAt, if_pos rfl, ← hv.endedCtx_eq heating hd e, idle, kind]
    have free : (v.endedCtx h e).cause = none := cause
    rw [← free]
    rfl
  have slot : ((v.ended h e).ctxAt h).current = some ⟨b, false⟩ := by
    rw [own]
    simp [State.restCtx, next]
  have desc : (s.freed h).OneMatch := by
    have one := (hv.ended heating e).cache.oneMatch
    unfold State.OneMatch at one ⊢
    simp only [State.ended_entryAt, State.freed_entryAt] at one
    simp only [State.freed_entryAt]
    intro c x y hx hy
    have entry (z : EntryIx) : s.entryAt z = v.entryAt z := by rw [State.entryAt, State.entryAt, same.cache]
    rw [entry] at hx hy
    exact one c x y hx hy
  have entries (f : EntryIx) : ((v.ended h e).arming h b).entryAt f = (s.freed h).entryAt f := by
    have : ((v.ended h e).arming h b).entryAt f = (v.freed h).entryAt f := v.ended_entryAt h e f
    rw [this, State.freed_entryAt, State.freed_entryAt, same.ctx, State.entryAt, State.entryAt, same.cache]
  have ring : ((v.ended h e).arming h b).ring = { v.ring with drive := placeIn v.ring.drive (v.stopFrame h e.cancel) } :=
    v.ended_ring h e
  have armed : ((v.ended h e).arming h b).ctxAt h =
      { s.restCtx h d (v.jointRecord h e) with state := .arming, current := some { asg := b, promoted := true } } := by
    rw [State.arming_ctxAt, if_pos rfl, own, rest]
  have interlock : (v.ended h e).interlock = s.interlock :=
    (State.interlock_of_base (v.ended_base h e)).trans (State.interlock_of_base same.base)
  have reqsOf (w : State) (carriers : w.carriers = (v.ended h e).carriers) (base : w.base = (v.ended h e).base)
      (settle : (w.ctxAt h).settle = (s.restCtx h d (v.jointRecord h e)).settle) (r : Bool) :
      w.requirementsFor h b r =
        { bound := r, purge := ((s.freed h).carriers.find? fun c => c.id = b.carrier).any fun c => c.purge = .ok,
          released := ((s.freed h).carriers.find? fun c => c.id = b.carrier).any CarrierEntry.released,
          interlock := s.interlock, settle := (s.restCtx h d (v.jointRecord h e)).settle.isNone } := by
    have table : w.carriers = s.carriers.map fun c => if c.id = (v.jointRecord h e).carrier then c.ended e.outcome.cls else c := by
      rw [carriers, State.ended_carriers, same.carriers]
    have find (p : CarrierEntry → Bool) (hp : ∀ c : CarrierEntry, p (c.ended e.outcome.cls) = p c) :
        (w.carrierAt b.carrier).any p = (s.carriers.find? fun c => decide (c.id = b.carrier)).any p := by
      rw [State.carrierAt, table]
      exact carriers_any_ended _ _ _ _ p hp
    unfold State.requirementsFor
    rw [find _ fun c => by rw [(c.ended_marks _).2.1], find _ fun c => by rw [(c.ended_marks _).2.2],
      State.interlock_of_base base, interlock, settle]
    rfl
  have leaves (w : State) (hw : v.terminate h e = w) : (∀ f, t.entryAt f = w.entryAt f) ∧ t.ctxAt h = w.ctxAt h ∧
      t.cache.wait = w.cache.wait ∧ ∀ f ∈ w.ring.general, f ∈ t.ring.general := by
    refine ⟨fun f => ?_, ?_, ?_, by rw [← hw]; exact ends.places⟩
    · rw [← ends.like.entryAt, State.closeCarriers_entryAt, hw]
    · rw [← ends.like.ctxAt, State.closeCarriers_ctxAt, hw]
    · rw [← ends.like.cache, State.closeCarriers_cache, hw]
  have promotes := State.terminate_promotes e wait reqs next idle
  unfold State.Promoted
  refine State.looksUp_of (u := (v.ended h e).arming h b) (h := h) desc entries ?_ ?_ ?_ ?_ (fun x y hx hy => ?_) fun hx => ?_
  · show (v.ended h e).cache.fetchLimit = s.cache.fetchLimit
    rw [State.ended_fetchLimit, same.cache]
  · rw [ring, same.ring]; rfl
  · rw [ring, same.ring]; rfl
  · rw [ring, same.ring]; rfl
  · obtain ⟨⟨z, ctx⟩, -, waits, carriers, base⟩ := State.tryBind_boundFrom hx
    have bound := ctx h
    rw [if_pos rfl] at bound
    obtain rfl : z = y := by rw [bound] at hy; exact Option.some.inj hy
    obtain ⟨hent, hctx, hwait, hgen⟩ := leaves _ (promotes.trans (State.promote_of_bound empty slot hx))
    refine ⟨⟨?_, ?_⟩, hent, hgen⟩
    · rw [hctx, State.required_ctxAt, if_pos rfl, reqsOf x.state carriers base (by rw [bound, armed]), bound, armed]
      rfl
    · rw [hwait, State.required_wait, waits]
      exact empty
  · obtain ⟨hent, hctx, hwait, hgen⟩ := leaves _ (promotes.trans (State.promote_of_starved empty slot hx))
    have reqs := reqsOf ((v.ended h e).starving h b) (State.starving_carriers _ h b) (State.starving_base _ h b)
      (by rw [State.starving_ctxAt, armed]) false
    refine ⟨⟨?_, ?_⟩, fun f => ?_⟩
    · rw [hctx, State.required_ctxAt, if_pos rfl, reqs, State.starving_ctxAt, armed]
      rfl
    · rw [hwait, State.required_wait, State.starving_wait]
    · rw [hent, State.required_entryAt, State.starving_entryAt, entries]

end

/-! ### The termination as a whole -/

theorem State.promote_heldRecord (s : State) (h : Head) : ((s.promote h).ctxAt h).heldRecord = (s.ctxAt h).heldRecord := by
  have seat {c c' : HeadCtx} (e : c.seat = c'.seat) : c.heldRecord = c'.heldRecord := congrArg (fun x => x.heldRecord) e
  unfold State.promote
  split
  · rfl
  · dsimp only
    rw [seat (State.runRetry_seat _ h), State.modCtx_ctxAt, if_pos rfl]
    show ((State.bindRequest _ h _ _).state.ctxAt h).heldRecord = _
    rw [seat (State.bindRequest_seat _ h _ _ h), State.modCtx_ctxAt, if_pos rfl]

theorem State.terminate_fetchLimit (v : State) (h : Head) (e : Ending) :
    (v.terminate h e).cache.fetchLimit = v.cache.fetchLimit := congrArg (fun p => p.2.2) (v.terminate_port h e)

/-- The records held once the record of a head has been offered. -/
theorem State.terminate_holdsRecordOf (e : Ending) (held : (v.ctxAt h).heldRecord = none)
    (others : ∀ j, j ≠ h → ((v.terminate h e).ctxAt j).heldRecord = (v.ctxAt j).heldRecord)
    (own : ((v.terminate h e).ctxAt h).heldRecord = if v.queueHasRoom then none else some (v.jointRecord h e))
    (id : CarrierId) : (v.terminate h e).holdsRecordOf id =
      (v.holdsRecordOf id || (!v.queueHasRoom && decide ((v.jointRecord h e).carrier = id))) := by
  rw [Bool.eq_iff_iff, Bool.or_eq_true, Bool.and_eq_true, decide_eq_true_eq]
  unfold State.holdsRecordOf
  simp only [List.any_eq_true, mem_allHeads, true_and]
  constructor
  · rintro ⟨j, hj⟩
    by_cases hjh : j = h
    · subst hjh
      rw [own] at hj
      cases hr : v.queueHasRoom
      · exact .inr ⟨rfl, by simpa [hr] using hj⟩
      · simp [hr] at hj
    · rw [others j hjh] at hj
      exact .inl ⟨j, hj⟩
  · rintro (⟨j, hj⟩ | ⟨hr, hid⟩)
    · have hjh : j ≠ h := by
        rintro rfl
        rw [held] at hj
        cases hj
      exact ⟨j, by rw [others j hjh]; exact hj⟩
    · refine ⟨h, ?_⟩
      rw [own, if_neg (by simpa using hr)]
      simpa using hid

/-- A record held, the queue is full (R142). -/
theorem State.Sound.full_of_held (hv : v.Sound k) (slots : k.slots = 0) {id : CarrierId} (hh : v.holdsRecordOf id = true) :
    v.queueHasRoom = false := by
  unfold State.holdsRecordOf at hh
  obtain ⟨j, -, hj⟩ := List.any_eq_true.mp hh
  have waits : 0 < v.recordsWaiting := by
    have : 0 < (allHeads.filter fun h => (v.ctxAt h).heldRecord.isSome).length := by
      refine List.length_pos_of_mem (List.mem_filter.mpr ⟨mem_allHeads j, ?_⟩)
      cases hx : (v.ctxAt j).heldRecord with
      | none => rw [hx] at hj; cases hj
      | some r => rfl
    unfold State.recordsWaiting
    omega
  have := hv.books.waiting waits
  rw [slots] at this
  unfold State.queueHasRoom
  simpa using this

section
variable (hv : v.Sound k) (slots : k.slots = 0) (owes : k.owes = false) (heating : (v.ctxAt h).state = .heating)
  (wait : v.cache.wait = []) (hd : v.boundDesc h = some d) (quiet : ∀ c ∈ v.carriers, v.closes c = false) (e : Ending)
include hv heating wait hd

theorem State.Sound.terminate_heldRecord : ((v.terminate h e).ctxAt h).heldRecord =
    if v.queueHasRoom then none else some (v.jointRecord h e) := by
  obtain ⟨-, -, reqs, cause, -⟩ := (hv.heads h).heating heating
  by_cases rest : (v.ctxAt h).next = none ∨ endedState e.outcome v.queueHasRoom ≠ .idle
  · rw [(State.terminate_rests e wait reqs cause rest).ctxAt, State.rested_ctxAt, if_pos rfl,
      hv.endedCtx_eq heating hd e]
    rfl
  · push Not at rest
    obtain ⟨next, idle⟩ := rest
    obtain ⟨b, next⟩ := Option.ne_none_iff_exists'.mp next
    have seat (w : State) : ((w.promote h).ctxAt h).heldRecord = (w.ctxAt h).heldRecord := State.promote_heldRecord w h
    rw [State.terminate_promotes e wait reqs next idle, seat, State.ended_ctxAt, if_pos rfl]
    obtain ⟨-, -, -, -, held⟩ := (hv.heads h).heating heating
    show (if v.queueHasRoom then (v.ctxAt h).heldRecord else some (v.jointRecord h e)) = _
    rw [held]

include slots owes quiet

/-- The end of a cycle, with its closing test (R59, R60, R71 to R74, R132). -/
theorem State.Sound.endedWith (same : s.EndsFrom v h) (ends : v.Ends t h e)
    (reserved : t.ring.reserved = s.ring.reserved) (enables : t.notices.enables = s.notices.enables) :
    s.EndedWith t h (v.jointRecord h e) d e.cancel := by
  obtain ⟨-, -, reqs, cause, held⟩ := (hv.heads h).heating heating
  have absent : ∀ w ∈ v.cache.wait, w.head ≠ h := by simp [wait]
  have room : v.queueHasRoom = s.queueHasRoom := by unfold State.queueHasRoom; rw [same.queue]
  have rest : v.restCtx h d (v.jointRecord h e) = s.restCtx h d (v.jointRecord h e) := by
    unfold State.restCtx
    rw [same.ctx, room]
  have ctx (j : Head) : t.ctxAt j = (v.terminate h e).ctxAt j := by rw [← ends.like.ctxAt, State.closeCarriers_ctxAt]
  have intake (j : Head) : t.intakeAt j = (v.terminate h e).intakeAt j := by
    rw [← ends.like.intakeAt, State.closeCarriers_intakeAt]
  have row (j : Head) : t.rowAt j = (v.terminate h e).rowAt j := by rw [← ends.like.rowAt, State.closeCarriers_rowAt]
  have cache : t.cache = (v.terminate h e).cache := by rw [← ends.like.cache, State.closeCarriers_cache]
  have core : t.ring.drive = (v.terminate h e).ring.drive := by
    have := ends.like.view (v := fun u => u.ring.drive) fun _ => rfl
    rw [← this, State.closeCarriers_ring]
  have drive : t.ring.drive = placeIn s.ring.drive (s.stopFrame h e.cancel) := by
    have stop : v.stopFrame h e.cancel = s.stopFrame h e.cancel := by
      unfold State.stopFrame
      rw [State.config_of_base same.base]
    rw [core, State.terminate_drive e reqs absent, stop, same.ring]
  refine ⟨fun hrest => ⟨?_, fun f => ?_, ?_⟩, fun b next idle => ?_, fun j hj => ?_, ?_, fun j hj => ?_, ?_, fun j hj => ?_,
    ?_, ?_, ?_, enables, ?_⟩
  · have hrest' : (v.ctxAt h).next = none ∨ endedState e.outcome v.queueHasRoom ≠ .idle := by
      rw [same.ctx, room]
      exact hrest
    rw [ctx, (State.terminate_rests e wait reqs cause hrest').ctxAt, State.rested_ctxAt, if_pos rfl,
      hv.endedCtx_eq heating hd e, rest]
    rfl
  · have hrest' : (v.ctxAt h).next = none ∨ endedState e.outcome v.queueHasRoom ≠ .idle := by
      rw [same.ctx, room]
      exact hrest
    rw [State.entryAt, cache, ← State.entryAt, (State.terminate_rests e wait reqs cause hrest').entryAt,
      State.rested_entryAt, State.freed_entryAt, State.freed_entryAt, same.ctx, State.entryAt, State.entryAt, same.cache]
  · have hrest' : (v.ctxAt h).next = none ∨ endedState e.outcome v.queueHasRoom ≠ .idle := by
      rw [same.ctx, room]
      exact hrest
    rw [cache, (State.terminate_rests e wait reqs cause hrest').cache, (v.rested_cache h e).1, State.ended_wait,
      ← same.cache, wait]
    rfl
  · exact hv.terminate_promoted heating wait hd e same (by rw [same.ctx]; exact next) (by rw [room]; exact idle) ends
  · rw [ctx, hv.terminate_others heating wait hj e, same.ctx]
  · rw [intake, State.terminate_intakeAt e reqs absent, if_pos rfl, same.own]
  · rw [intake, State.terminate_intakeAt e reqs absent, if_neg hj, same.intake j hj]
  · rw [row, State.terminate_rowAt e reqs absent, if_pos rfl]
  · rw [row, State.terminate_rowAt e reqs absent, if_neg hj, same.rows j hj, Row.released_eq]
  · rw [drive]
    exact find_placeIn (f := s.stopFrame h e.cancel) rfl rfl
  · rw [drive]
    exact filter_placeIn _ (s.stopFrame h e.cancel)
  · have accounted : v.Accounted (v.terminate h e).closeCarriers [v.jointRecord h e] :=
      State.accounted_of hv.books.carriers.2 quiet (fun id hid => hv.full_of_held slots hid)
        (State.terminate_carriers e reqs absent) (State.terminate_queue e reqs absent)
        (State.terminate_holdsRecordOf e held (fun j hj => by rw [hv.terminate_others heating wait hj e])
          (hv.terminate_heldRecord heating wait hd e))
    unfold State.Accounted at accounted ⊢
    rw [ends.like.queue, ends.like.carriers, same.queue, same.carriers] at accounted
    exact accounted
  · have port := v.terminate_port h e
    have owed : s.cache.retryOwed = false := by
      rw [← same.cache]
      by_contra ho
      have := hv.cache.owes (by simpa using ho)
      rw [owes] at this
      cases this
    refine State.ext_at ?_ rfl ?_ ?_ (fun _ => rfl) rfl (fun _ => rfl) (fun _ => rfl) (fun _ => rfl) rfl ?_ rfl
    · have base : t.base = s.base := by
        rw [← ends.like.view (v := State.base) fun _ => rfl, State.closeCarriers_base, State.terminate_base, same.base]
      exact base
    · show t.cache.fetchLimit = s.cache.fetchLimit
      rw [cache, State.terminate_fetchLimit, same.cache]
    · show t.cache.retryOwed = s.cache.retryOwed
      rw [cache, hv.terminate_retryOwed heating wait e, owed]
    · have fields : t.ring =
          { (v.terminate h e).ring with general := t.ring.general, reserved := t.ring.reserved } := by
        have := congrArg State.ring ends.like.eq_with
        rwa [State.closeCarriers_ring] at this
      have bare : t.ring = { ({ (v.terminate h e).ring with drive := [], general := [] } : RingPort) with
          drive := t.ring.drive, general := t.ring.general, reserved := s.ring.reserved } := by
        rw [core, ← reserved]
        exact fields
      have kept : ({ (v.terminate h e).ring with drive := [], general := [] } : RingPort) =
          { v.ring with drive := [], general := [] } := congrArg Prod.fst port
      rw [kept, same.ring] at bare
      exact bare

end

end Sys2Proof.Machine
end

section
/-! What is ready after the end of a cycle, and the end event of a word with no time to run (R18, R52). -/

namespace Sys2Proof.Machine

variable {s t u v : State} {k : Flight} {h g : Head} {d : ClassDesc}

/-! ### Nothing is ready but what an end makes ready -/

/-- In a lawful state a head in ARMING with all requirements met is ready (R50, R51). -/
theorem State.Sound.readyDesc_isSome (hs : s.Sound k) {j : Head} (hm : k.mode j ≠ .homeless)
    (arming : (s.ctxAt j).state = .arming)
    (reqs : (s.ctxAt j).reqs = some { bound := true, purge := true, released := true, interlock := true, settle := true }) :
    (s.readyDesc j).isSome = true := by
  obtain ⟨a, ha⟩ := HeadCtx.promoted_current ((hs.heads j).arming arming).1
  have follows := hs.cache.requirements j arming hm _ ha
  rw [reqs] at follows
  have bound : (s.boundDesc j).isSome = true := (congrArg Requirements.bound (Option.some.inj follows)).symm
  unfold State.readyDesc
  rw [if_pos ⟨arming, reqs⟩]
  exact bound

/-- A head whose context stands is ready where it was. -/
theorem State.Sound.readyDesc_none_of_ctx (hs : s.Sound k) {j : Head} (hm : k.mode j ≠ .homeless)
    (ctx : t.ctxAt j = s.ctxAt j) (hr : s.readyDesc j = none) : t.readyDesc j = none := by
  cases ht : t.readyDesc j with
  | none => rfl
  | some e =>
    obtain ⟨arming, reqs, -⟩ := State.readyDesc_iff.mp ht
    rw [ctx] at arming reqs
    have := hs.readyDesc_isSome hm arming reqs
    rw [hr] at this
    cases this

/-- After the end of the cycle of a head with nothing behind it no more heads are ready than before. -/
theorem State.Sound.terminate_firstReady (hv : v.Sound k) (hk : ∀ j, k.mode j ≠ .homeless)
    (heating : (v.ctxAt h).state = .heating) (wait : v.cache.wait = []) (next : (v.ctxAt h).next = none)
    (others : ∀ j, j ≠ h → v.readyDesc j = none) (e : Ending) : (v.terminate h e).firstReady = none := by
  obtain ⟨-, -, reqs, cause, -⟩ := (hv.heads h).heating heating
  refine State.firstReady_none_iff.mpr fun j => ?_
  by_cases hj : j = h
  · subst hj
    have ctx := (State.terminate_rests e wait reqs cause (.inl next)).ctxAt j
    rw [State.rested_ctxAt, if_pos rfl] at ctx
    unfold State.readyDesc
    rw [ctx, if_neg]
    rintro ⟨arming, -⟩
    simp only [endedState] at arming
    split at arming
    · cases arming
    · split at arming <;> cases arming
  · exact hv.readyDesc_none_of_ctx (hk j) (hv.terminate_others heating wait hj e) (others j hj)

/-- A step of a running cycle makes no head ready. -/
theorem State.StepsOn.readyDesc (hst : s.StepsOn h t) (heating : (s.ctxAt h).state = .heating) (j : Head) :
    t.readyDesc j = s.readyDesc j := by
  by_cases hj : j = h
  · subst hj
    have hot : (t.ctxAt j).state = .heating := (HeadCtx.cycle_eq_iff.mp hst.own).1.trans heating
    unfold State.readyDesc
    rw [if_neg (by rw [hot]; rintro ⟨e, -⟩; cases e), if_neg (by rw [heating]; rintro ⟨e, -⟩; cases e)]
  · unfold State.readyDesc
    rw [hst.others j hj, hst.boundDesc]

theorem State.firstReady_congr (ready : ∀ j, t.readyDesc j = s.readyDesc j) : t.firstReady = s.firstReady := by
  unfold State.firstReady
  simp only [ready]

/-- A step of a running cycle closes no carrier. -/
theorem State.StepsOn.closes (hst : s.StepsOn h t) (c : CarrierEntry) : t.closes c = s.closes c := by
  unfold State.closes
  rw [State.holdsRecordOf_congr (s := s) fun j => ?_]
  by_cases hj : j = h
  · subst hj
    exact (HeadCtx.cycle_eq_iff.mp hst.own).2.2.2.2.2.2
  · rw [hst.others j hj]

/-- The closing test closes all there is to close. -/
theorem State.Sound.closeCarriers_idem (hs : s.Sound k) : s.closeCarriers.closeCarriers = s.closeCarriers :=
  State.closeCarriers_of_none hs.closeCarriers_settled

theorem State.startLoop_of_none {n : Nat} (hf : s.firstReady = none) : startLoop n s = s := by
  cases n with
  | zero => rfl
  | succ n => simp [startLoop, hf]

theorem State.closeCarriers_firstReady (s : State) : s.closeCarriers.firstReady = s.firstReady :=
  State.firstReady_congr fun j => s.closeCarriers_readyDesc j

/-! ### A step timer that has run out (R18) -/

/-- The step timer of a head that does not run is taken to have run out. -/
theorem State.runOut_modCtx (s : State) (h : Head) (f : HeadCtx → HeadCtx)
    (hf : ∀ c : HeadCtx, f { c with stepTimer := some 0 } = f c) : (s.runOut h).modCtx h f = s.modCtx h f := by
  rw [State.runOut_eq, State.modCtx_modCtx]
  exact State.modCtx_congr (hf _)

theorem State.runOut_ctxAt (s : State) (h j : Head) :
    (s.runOut h).ctxAt j = if j = h then { s.ctxAt h with stepTimer := some 0 } else s.ctxAt j := by
  rw [State.runOut_eq, State.modCtx_ctxAt]

theorem State.runOut_boundDesc (s : State) (h j : Head) : (s.runOut h).boundDesc j = s.boundDesc j := by
  refine State.boundDesc_congr ?_ fun _ _ => rfl
  rw [State.runOut_ctxAt]
  split
  · next hj => rw [hj]
  · rfl

theorem State.runOut_stop (s : State) (h : Head) (c : Bool) : (s.runOut h).stop h c = (s.stop h c).runOut h := by
  refine State.ext_at ?_ ?_ ?_ ?_ (fun e => ?_) ?_ (fun j => ?_) (fun j => ?_) (fun j => ?_) ?_ ?_ ?_
  · rw [State.stop_base, State.runOut_eq, State.runOut_eq, State.modCtx_base, State.modCtx_base, State.stop_base]
  · simp [State.runOut_eq]
  · simp [State.runOut_eq]
  · simp [State.runOut_eq]
  · simp [State.runOut_eq]
  · simp [State.runOut_eq]
  · rw [State.stop_ctxAt, State.runOut_ctxAt, State.runOut_ctxAt, State.stop_ctxAt, State.stop_ctxAt]
  · simp [State.runOut_eq]
  · rw [State.stop_rowAt, State.runOut_rowAt, State.runOut_rowAt, State.stop_rowAt]
  · simp [State.runOut_eq]
  · simp only [State.runOut_eq, State.stop_ring, State.modCtx_ring]
    rfl
  · simp [State.runOut_eq]

/-- A cycle ends as it would with its step timer just run out, where the timer does not run. -/
theorem State.runOut_terminate (timer : (s.ctxAt h).stepTimer = none) (e : Ending) :
    (s.runOut h).terminate h e = s.terminate h e := by
  have record : (s.runOut h).jointRecord h e = s.jointRecord h e := by
    unfold State.jointRecord
    rw [State.runOut_ctxAt, if_pos rfl]
    simp [timer]
  have cool (n : Nat) : (((s.runOut h).stop h e.cancel).modIntake h fun i => { i with staleTimer := none }).modCtx h
      (fun c => c.terminated n) =
      ((s.stop h e.cancel).modIntake h fun i => { i with staleTimer := none }).modCtx h fun c => c.terminated n := by
    rw [State.runOut_stop]
    exact State.runOut_modCtx ((s.stop h e.cancel).modIntake h fun i => { i with staleTimer := none }) h
      (fun c => c.terminated n) fun _ => rfl
  unfold State.terminate
  simp only [record, State.runOut_boundDesc, cool]

theorem State.runOut_releaseClaims (s : State) (h : Head) : (s.runOut h).releaseClaims h = (s.releaseClaims h).runOut h := by
  refine State.ext_at ?_ ?_ ?_ ?_ (fun e => ?_) ?_ (fun j => ?_) (fun j => ?_) (fun j => ?_) ?_ ?_ ?_
  · rw [State.releaseClaims_base, State.runOut_eq, State.runOut_eq, State.modCtx_base, State.modCtx_base,
      State.releaseClaims_base]
  · simp [State.runOut_eq]
  · simp [State.runOut_eq]
  · simp [State.runOut_eq]
  · simp [State.runOut_eq]
  · simp [State.runOut_eq]
  · rw [State.releaseClaims_ctxAt, State.runOut_ctxAt, State.runOut_ctxAt, State.releaseClaims_ctxAt,
      State.releaseClaims_ctxAt]
  · simp [State.runOut_eq]
  · rw [State.releaseClaims_rowAt, State.runOut_rowAt, State.runOut_rowAt, State.releaseClaims_rowAt]
  · simp [State.runOut_eq]
  · simp [State.runOut_eq]
  · simp [State.runOut_eq]

theorem State.runOut_startStep (s : State) (h : Head) (a : Nat) (w : StepWord) :
    (s.runOut h).startStep h a w = s.startStep h a w := by
  have prefetch : (s.runOut h).prefetchFor h a w = s.prefetchFor h a w := by
    unfold State.prefetchFor
    rw [State.runOut_boundDesc]
    rfl
  have intake : (s.runOut h).intakeAt h = s.intakeAt h := rfl
  unfold State.startStep
  rw [prefetch, intake, State.runOut_modCtx]
  exact fun _ => rfl

theorem State.runOut_chainNext (s : State) (h : Head) (w : StepWord) : (s.runOut h).chainNext h w = s.chainNext h w := by
  unfold State.chainNext
  rw [State.runOut_releaseClaims, State.runOut_startStep, State.runOut_ctxAt, if_pos rfl]

theorem State.runOut_chainSegment (s : State) (h : Head) (w : StepWord) :
    (s.runOut h).chainSegment h w = s.chainSegment h w := by
  have prefetch (a : Nat) : (s.runOut h).prefetchFor h a w = s.prefetchFor h a w := by
    unfold State.prefetchFor
    rw [State.runOut_boundDesc]
    rfl
  unfold State.chainSegment State.startSegment
  rw [prefetch, State.runOut_ctxAt, if_pos rfl, State.runOut_modCtx]
  exact fun _ => rfl

theorem State.runOut_endDecision (s : State) (h : Head) : (s.runOut h).endDecision h = s.endDecision h := by
  unfold State.endDecision
  rw [State.runOut_ctxAt, if_pos rfl, State.runOut_boundDesc]
  rfl

/-- Two progresses from which the same follows. -/
def Progress.Same (p q : Progress) (h : Head) : Prop := p.finish h = q.finish h ∧ p.ending.isSome = q.ending.isSome

theorem Progress.Same.conclude {p q : Progress} (same : p.Same q h) : p.conclude h = q.conclude h := by
  obtain ⟨finish, ending⟩ := same
  unfold Progress.finish at finish
  unfold Progress.conclude
  cases hp : p.ending <;> cases hq : q.ending <;> simp only [hp, hq] at finish ending ⊢
  · exact finish
  · cases ending
  · cases ending
  · rw [finish]

/-- The end event of a step, with its timer just run out or not running. -/
theorem endEvent_runOut (n : Nat) (timer : (s.ctxAt h).stepTimer = none) :
    (endEvent (n + 1) h (s.runOut h)).Same (endEvent (n + 1) h s) h := by
  have ending (o : CycleOutcome) : (s.runOut h).endingAt h o false = s.endingAt h o false := by
    unfold State.endingAt
    rw [State.runOut_ctxAt, if_pos rfl]
  unfold endEvent
  rw [State.runOut_endDecision]
  cases s.endDecision h with
  | ends o => exact ⟨by simp only [Progress.finish, ending, State.runOut_terminate timer], rfl⟩
  | next w => simp only [State.runOut_chainNext]; exact ⟨rfl, rfl⟩
  | segment w => simp only [State.runOut_chainSegment]; exact ⟨rfl, rfl⟩

end Sys2Proof.Machine
end

section
/-! The starts that follow an event, in the words of the statements (R51, R52, R5, R18, R67). -/

namespace Sys2Proof.Machine

variable {s t u v settled : State} {k : Flight} {h g : Head} {d : ClassDesc}

theorem Flight.none_ne_homeless (j : Head) : Flight.none.mode j ≠ .homeless := by rw [Flight.none_mode]; decide

/-! ### Starts in like states -/

theorem State.Like.withStarts {s' t' : State} (hs : s.Like s') (ht : t.Like t') :
    (s.withStarts t).Like (s'.withStarts t') := by
  have reads (x y : State) : (x.withStarts y).core = x.core.withStarts y.core := by
    unfold State.withStarts
    rfl
  show (s.withStarts t).core = (s'.withStarts t').core
  rw [reads, reads, show s.core = s'.core from hs, show t.core = t'.core from ht]

theorem State.Like.readyOn (hl : s.Like t) (h : Head) (d : ClassDesc) : s.ReadyOn h d ↔ t.ReadyOn h d := by
  unfold State.ReadyOn
  rw [hl.ctxAt, hl.boundDesc, hl.store]

theorem State.Like.startedCtx (hl : s.Like t) (h : Head) (d : ClassDesc) : s.startedCtx h d = t.startedCtx h d :=
  hl.view (v := fun u => u.startedCtx h d) fun _ => rfl

theorem State.Like.startingCtx (hl : s.Like t) (h : Head) (d : ClassDesc) : s.startingCtx h d = t.startingCtx h d :=
  hl.view (v := fun u => u.startingCtx h d) fun _ => rfl

theorem State.Like.configAt (hl : s.Like t) (h : Head) : s.configAt h = t.configAt h :=
  hl.view (v := fun u => u.configAt h) fun _ => rfl

theorem State.Like.base (hl : s.Like t) : s.base = t.base := hl.view (v := State.base) fun _ => rfl

theorem State.Like.runOut (hl : s.Like t) (h : Head) : (s.runOut h).Like (t.runOut h) := by
  rw [State.runOut_eq, State.runOut_eq]
  exact hl.modCtx h _

/-- A head that is ready alone is the first. -/
theorem State.firstReady_of_only (hr : s.readyDesc h = some d) (others : ∀ j, j ≠ h → s.readyDesc j = none) :
    s.firstReady = some (h, d) := by
  cases hf : s.firstReady with
  | none =>
    have := State.firstReady_none_iff.mp hf h
    rw [hr] at this
    cases this
  | some p =>
    obtain ⟨i, e⟩ := p
    have hi := State.firstReady_some hf
    have : i = h := by
      by_contra hne
      rw [others i hne] at hi
      cases hi
    subst this
    rw [hr] at hi
    cases hi
    rfl

/-- The state with another general queue. -/
def State.withGeneral (s : State) (g : List Frame) : State := s.modRing fun r => { r with general := g }

/-- What the end of a cycle leaves reads the general queue only where a next assignment is promoted. -/
theorem State.EndedWith.of_withGeneral {g : List Frame} {r : JointRecord} {cancel : Bool} (next : (s.ctxAt h).next = none)
    (he : (s.withGeneral g).EndedWith t h r d cancel) : s.EndedWith t h r d cancel := by
  obtain ⟨rests, -, others, rest⟩ := he
  refine ⟨rests, fun b hb => ?_, others, rest⟩
  rw [next] at hb
  cases hb

/-! ### The end of an event -/

/-- What the end of an event leaves: `s` is the state the event has made, `settled` the outcome where no head can start, `u` the
state from which the heads start and `t` the outcome. -/
structure State.Finish (s settled u t : State) : Prop where
  work : s.Like u
  result : u.startReady.closeCarriers.Like t
  reserved : t.ring.reserved = s.ring.reserved
  enables : t.notices.enables = s.notices.enables
  places : ∀ f ∈ u.startReady.closeCarriers.ring.general, f ∈ t.ring.general
  replies : (t.ring.general.filter fun f => f.kind = 0x02) = settled.ring.general.filter fun f => f.kind = 0x02
  outcome : s.Like settled
  outcomeReserved : settled.ring.reserved = s.ring.reserved
  free : settled.resetHeld = false
  still : u.startReady.closeCarriers = u.withStarts u → t.notices = settled.notices ∧ t.ring.general = settled.ring.general

section
variable (f : s.Finish settled u t) (hu : u.Sound Flight.none) (quiet : ∀ c ∈ u.carriers, u.closes c = false)
include f quiet

/-- Where nothing happens but starts, the outcome is that of the starts. -/
theorem State.Finish.of_withStarts (starts : u.startReady = u.withStarts u) : t = s.withStarts settled := by
  have closed : u.startReady.closeCarriers = u.withStarts u := by
    rw [starts]
    refine State.closeCarriers_of_none fun c hc => ?_
    rw [State.withStarts_closes]
    exact quiet c hc
  obtain ⟨notices, general⟩ := f.still closed
  have like : t.Like (s.withStarts settled) := by
    have := f.result
    rw [closed] at this
    exact this.symm.trans (f.work.symm.withStarts (f.work.symm.trans f.outcome))
  exact like.eq notices general (f.reserved.trans f.outcomeReserved.symm)

/-- Where no head is ready, nothing follows. -/
theorem State.Finish.of_none (none : s.firstReady = none) : t = settled := by
  have none' : u.firstReady = Option.none := by rw [← f.work.firstReady]; exact none
  have starts : u.startReady = u.withStarts u := by
    rw [State.startReady_of_none none', State.withStarts_of_none none']
  have same := f.of_withStarts quiet starts
  have like : (s.withStarts settled).Like settled := by
    have := f.work.withStarts (f.outcome.symm.trans f.work)
    rw [State.withStarts_of_none none'] at this
    exact this.trans (f.work.symm.trans f.outcome)
  rw [same]
  exact like.eq rfl rfl rfl

include hu

omit quiet in
theorem State.Finish.started (on : s.ReadyOn h d) : s.CycleStarted t h d := by
  obtain ⟨ctx, intake, row⟩ := hu.startReady_starts rfl Flight.none_ne_homeless ((f.work.readyOn h d).mp on)
  refine ⟨?_, ?_, ?_⟩
  · rw [← f.result.ctxAt, State.closeCarriers_ctxAt, ctx, f.work.startedCtx]
  · rw [← f.result.intakeAt, State.closeCarriers_intakeAt, intake, f.work.intakeAt, f.work.configAt]
  · rw [← f.result.rowAt, State.closeCarriers_rowAt, row, f.work.store]

end

/-! ### A start that fails (R5, R71) -/

section
variable (f : s.Finish settled u t) (hu : u.Sound Flight.none) (quiet : ∀ c ∈ u.carriers, u.closes c = false)
  (wait : s.cache.wait = []) (ready : s.readyDesc h = some d) (others : ∀ j, j ≠ h → s.readyDesc j = none)
  {a : Assignment} (current : (s.ctxAt h).current = some { asg := a, promoted := true }) (next : (s.ctxAt h).next = none)
include f hu quiet wait ready others current next

/-- The cycle of the one ready head ends at its start. -/
theorem State.Finish.fails {o : CycleOutcome} {code : Fin 16}
    (start : u.startCycle h d =
      ⟨u.entering h d, some { outcome := o, addr := d.start, code, cancel := false }⟩) :
    ({ s with ctx := s.ctx.set h.val (s.startingCtx h d) } : State).EndedWith t h
      { ({ s with ctx := s.ctx.set h.val (s.startingCtx h d) } : State).recordAt h o a with endCode := code } d false := by
  have ready' : u.readyDesc h = some d := by rw [← f.work.readyDesc]; exact ready
  have others' (j : Head) (hj : j ≠ h) : u.readyDesc j = none := by rw [← f.work.readyDesc]; exact others j hj
  have deferred := (hu.startCycle ready' rfl).2
  rw [start] at deferred
  have entered := u.entering_ctxAt h (d := d)
  have heating : ((u.entering h d).ctxAt h).state = .heating := by rw [entered, if_pos rfl]; rfl
  have wait' : (u.entering h d).cache.wait = [] := by
    show u.cache.wait = []
    rw [← f.work.cache]; exact wait
  have desc : (u.entering h d).boundDesc h = some d := by
    rw [State.entering_boundDesc]
    exact (State.readyDesc_iff.mp ready').2.2
  have next' : ((u.entering h d).ctxAt h).next = none := by
    rw [entered, if_pos rfl]
    show (u.ctxAt h).next = none
    rw [← f.work.ctxAt]; exact next
  have after := deferred.terminate_firstReady (Flight.put_ne_homeless (by decide) Flight.none_ne_homeless) heating wait' next'
    (fun j hj => by
      unfold State.readyDesc
      rw [entered, if_neg hj, State.entering_boundDesc]
      exact others' j hj) { outcome := o, addr := d.start, code, cancel := false }
  have loop : u.startReady = (u.entering h d).terminate h { outcome := o, addr := d.start, code, cancel := false } := by
    unfold State.startReady
    rw [startLoop_of_some (State.firstReady_of_only ready' others'), start]
    exact State.startLoop_of_none after
  have s1ctx (j : Head) : (({ s with ctx := s.ctx.set h.val (s.startingCtx h d) } : State)).ctxAt j =
      if j = h then s.startingCtx h d else s.ctxAt j := by
    have : ({ s with ctx := s.ctx.set h.val (s.startingCtx h d) } : State) = s.modCtx h fun _ => s.startingCtx h d := rfl
    rw [this, State.modCtx_ctxAt]
  have same : (({ s with ctx := s.ctx.set h.val (s.startingCtx h d) } : State).withGeneral u.ring.general).EndsFrom
      (u.entering h d) h := by
    refine ⟨fun j => ?_, fun j hj => ?_, ?_, fun j _ => (f.work.rowAt j).symm, f.work.cache.symm, f.work.carriers.symm,
      f.work.queue.symm, f.work.base.symm, congrArg State.ring f.work.eq_with⟩
    · rw [entered]
      refine Eq.trans ?_ (s1ctx j).symm
      rw [f.work.startingCtx, f.work.ctxAt]
    · rw [State.entering, State.modIntake_intakeAt_of_ne _ hj]
      exact (f.work.intakeAt j).symm
    · rw [State.entering, State.modIntake_intakeAt_self]
      show ({ u.intakeAt h with staleTimer := none } : Intake) = { s.intakeAt h with staleTimer := none }
      rw [f.work.intakeAt]
  have ends : (u.entering h d).Ends t h { outcome := o, addr := d.start, code, cancel := false } := by
    refine ⟨by rw [← loop]; exact f.result, fun x hx => f.places x ?_⟩
    rw [State.closeCarriers_ring, loop]
    exact hx
  have record : ({ ({ s with ctx := s.ctx.set h.val (s.startingCtx h d) } : State).recordAt h o a with endCode := code } :
      JointRecord) = (u.entering h d).jointRecord h { outcome := o, addr := d.start, code, cancel := false } := by
    have slot : ((u.entering h d).ctxAt h).current = some { asg := a, promoted := true } := by
      rw [entered, if_pos rfl]
      show (u.ctxAt h).current = _
      rw [← f.work.ctxAt]; exact current
    have own : (u.entering h d).ctxAt h = s.startingCtx h d := by rw [entered, if_pos rfl, f.work.startingCtx]
    have own' := s1ctx h
    rw [if_pos rfl] at own'
    rw [own] at slot
    simp only [State.recordAt, State.jointRecord, own, own', slot, Option.map_some, Option.getD_some]
    rfl
  have own := s1ctx h
  rw [if_pos rfl] at own
  refine State.EndedWith.of_withGeneral (g := u.ring.general) (by rw [own]; exact next) ?_
  rw [record]
  refine deferred.endedWith (k := Flight.none.put h .deferred) rfl rfl heating wait' desc (fun c hc => ?_) _ same ends f.reserved f.enables
  rw [(show (u.entering h d).closes c = u.closes c from ?_)]
  · exact quiet c hc
  · unfold State.closes
    rw [State.holdsRecordOf_congr (s := u) fun j => ?_]
    rw [entered]
    split
    · next hj => rw [hj]; rfl
    · rfl

end

end Sys2Proof.Machine
end

section
/-! A start on a word with no time to run, and the starts of an event in full (R18, R52). -/

namespace Sys2Proof.Machine

variable {s t u v settled : State} {k : Flight} {h g : Head} {d : ClassDesc}

/-! ### Words with no dwell (R18) -/

theorem StepWord.zeroDwell_iff {w : StepWord} :
    w.zeroDwell = true ↔ (w.kind? = some .soak ∨ w.kind? = some .hold) ∧ w.param = 0 := by
  simp [StepWord.zeroDwell]

theorem StepWord.timer_of_zeroDwell {w : StepWord} (hw : w.zeroDwell = true) : w.timer = none := by
  obtain ⟨kind, param⟩ := StepWord.zeroDwell_iff.mp hw
  rcases kind with kind | kind <;> simp [StepWord.timer, kind, param]

theorem StepWord.kind_of_zeroDwell {w : StepWord} (hw : w.zeroDwell = true) : w.kind? ≠ none := by
  obtain ⟨kind, -⟩ := StepWord.zeroDwell_iff.mp hw
  rcases kind with kind | kind <;> rw [kind] <;> simp

/-- DWELL_EXPIRY of a dwell that has run out takes the end event (R68, R15). -/
theorem exec_dwellExpiry (free : s.resetHeld = false) (heating : (s.ctxAt h).state = .heating)
    (timer : (s.ctxAt h).stepTimer = some 0) (kind : s.runningKind h = some .soak ∨ s.runningKind h = some .hold) :
    exec (.dwellExpiry h) s = .next ((s.takeEndEvent h).conclude h).report := by
  show execDwellExpiry h s = _
  unfold execDwellExpiry event takes State.live
  rw [free]
  simp only [heating, timer, kind, and_self, if_true, Bool.false_eq_true, if_false]

theorem State.takeEndEvent_runOut (timer : (s.ctxAt h).stepTimer = none) :
    ((s.runOut h).takeEndEvent h).conclude h = (s.takeEndEvent h).conclude h := (endEvent_runOut 1025 timer).conclude

theorem State.takeEndEvent_conclude_port (s : State) (h : Head) : ((s.takeEndEvent h).conclude h).port = s.port := by
  unfold Progress.conclude
  split
  · rw [State.conclude_port, State.terminate_port, State.takeEndEvent_port]
  · rw [State.takeEndEvent_port]

/-! ### The end of a cycle at its start -/

/-- After a start and the steps it passes through, the end of the cycle and its closing test are all that follows. -/
theorem State.Sound.finish_conclude (hu : u.Sound Flight.none) (quiet : ∀ c ∈ u.carriers, u.closes c = false)
    (wait : u.cache.wait = []) (ready : u.readyDesc h = some d) (others : ∀ j, j ≠ h → u.readyDesc j = none)
    (next : (u.ctxAt h).next = none) (n : Nat) :
    (Machine.startLoop n ((u.startCycle h d).finish h)).closeCarriers = (u.startCycle h d).conclude h := by
  have steps := u.startCycle_stepsOn h d
  have deferred := (hu.startCycle ready rfl).2
  have entered : ((u.entering h d).ctxAt h).state = .heating := by rw [State.entering_ctxAt, if_pos rfl]; rfl
  have heating : ((u.startCycle h d).state.ctxAt h).state = .heating := by rw [State.startCycle_state, if_pos rfl]
  have away (j : Head) : (Flight.none.put h .deferred).mode j ≠ .homeless :=
    Flight.put_ne_homeless (by decide) Flight.none_ne_homeless j
  have notReady (j : Head) : (u.startCycle h d).state.readyDesc j = none := by
    rw [steps.readyDesc entered]
    by_cases hj : j = h
    · subst hj
      unfold State.readyDesc
      rw [if_neg]
      rintro ⟨e, -⟩
      rw [entered] at e
      cases e
    · unfold State.readyDesc
      rw [State.entering_ctxAt, if_neg hj, State.entering_boundDesc]
      exact others j hj
  have wait' : (u.startCycle h d).state.cache.wait = [] := by
    rw [steps.cache]
    exact wait
  have next' : ((u.startCycle h d).state.ctxAt h).next = none := by
    rw [(HeadCtx.cycle_eq_iff.mp steps.own).2.2.1, State.entering_ctxAt, if_pos rfl]
    exact next
  unfold Progress.finish Progress.conclude
  cases (u.startCycle h d).ending with
  | none =>
    simp only
    rw [State.startLoop_of_none (State.firstReady_none_iff.mpr notReady)]
    refine State.closeCarriers_of_none fun c hc => ?_
    rw [steps.carriers] at hc
    rw [steps.closes]
    have same : (u.entering h d).closes c = u.closes c := by
      unfold State.closes
      rw [State.holdsRecordOf_congr (s := u) fun j => ?_]
      rw [State.entering_ctxAt]
      split
      · next hj => rw [hj]; rfl
      · rfl
    rw [same]
    exact quiet c hc
  | some e =>
    simp only
    have after := deferred.terminate_firstReady away heating wait' next' (fun j _ => notReady j) e
    have sound := deferred.terminate heating away e
    rw [State.startLoop_of_none after, State.conclude,
      State.startReady_of_none ((State.closeCarriers_firstReady _).trans after), sound.closeCarriers_idem]

/-- The starts where one head alone is ready and starts on a valid step. -/
theorem State.withStarts_of_only (ready : s.readyDesc h = some d) (others : ∀ j, j ≠ h → s.readyDesc j = none) :
    s.withStarts s = s.start h d := by
  rw [← State.start_withStarts ready, State.withStarts_of_none]
  refine State.firstReady_none_iff.mpr fun j => ?_
  rw [State.start_readyDesc]
  split
  · rfl
  · next hj => exact others j hj

section
variable (f : s.Finish settled u t) (hu : u.Sound Flight.none) (quiet : ∀ c ∈ u.carriers, u.closes c = false)
include f hu quiet

/-- The start word of the one ready head has no dwell: it takes its end event at once (R18). -/
theorem State.Finish.passes (wait : s.cache.wait = []) (ready : s.readyDesc h = some d)
    (others : ∀ j, j ≠ h → s.readyDesc j = none) (next : (s.ctxAt h).next = none)
    (range : d.inRange d.start = true) (dwell : (s.store.read d.start).zeroDwell = true) :
    ∃ w, exec (.dwellExpiry h) ((s.withStarts settled).runOut h) = .next w ∧ w.AlikeButNotices t := by
  have ready' : u.readyDesc h = some d := by rw [← f.work.readyDesc]; exact ready
  have others' (j : Head) (hj : j ≠ h) : u.readyDesc j = none := by rw [← f.work.readyDesc]; exact others j hj
  have dwell' : (u.store.read d.start).zeroDwell = true := by rw [← f.work.store]; exact dwell
  have kind := (StepWord.zeroDwell_iff.mp dwell').1
  have started := u.start_ctxAt h h d
  rw [if_pos rfl] at started
  have timer : ((u.start h d).ctxAt h).stepTimer = none := by
    rw [started]
    exact StepWord.timer_of_zeroDwell dwell'
  have only := State.withStarts_of_only ready' others'
  have like : ((s.withStarts settled).runOut h).Like ((u.start h d).runOut h) := by
    rw [← only]
    exact (f.work.withStarts (f.outcome.symm.trans f.work)).runOut h
  have cycle : u.startCycle h d = (u.start h d).takeEndEvent h := by
    rw [State.startCycle_eq (State.readyDesc_iff.mp ready').2.2, if_pos range,
      if_neg (StepWord.kind_of_zeroDwell dwell'), if_pos dwell']
  have result : ((u.start h d).takeEndEvent h).conclude h = u.startReady.closeCarriers := by
    rw [← cycle, ← hu.finish_conclude quiet (by rw [← f.work.cache]; exact wait) ready' others'
      (by rw [← f.work.ctxAt]; exact next) 31, State.startReady, startLoop_of_some (State.firstReady_of_only ready' others')]
  have ended : ((((s.withStarts settled).runOut h).takeEndEvent h).conclude h).Like t := by
    have same := State.takeEndEvent_runOut timer
    refine State.Like.trans ?_ f.result
    rw [← result, ← same]
    exact (endEvent_like 1026 h like).conclude h
  have own : ((s.withStarts settled).runOut h).ctxAt h = { u.startedCtx h d with stepTimer := some 0 } := by
    rw [like.ctxAt, State.runOut_ctxAt, if_pos rfl, started]
  have free : ((s.withStarts settled).runOut h).resetHeld = false := by
    refine (State.resetHeld_of_base (s := settled) ?_).trans f.free
    rw [State.runOut_eq, State.modCtx_base, State.withStarts_base]
  have heating : (((s.withStarts settled).runOut h).ctxAt h).state = .heating := by rw [own]; rfl
  have running : ((s.withStarts settled).runOut h).runningKind h = (u.store.read d.start).kind? := by
    unfold State.runningKind
    rw [own]
    rfl
  refine ⟨_, exec_dwellExpiry free heating (by rw [own]) (by rw [running]; exact kind), ?_⟩
  have reserved : (((((s.withStarts settled).runOut h).takeEndEvent h).conclude h).report).ring.reserved =
      t.ring.reserved := by
    rw [State.reserved_of_port (State.report_port _),
        State.reserved_of_port (State.takeEndEvent_conclude_port ((s.withStarts settled).runOut h) h), f.reserved,
        ← f.outcomeReserved]
    rfl
  refine ⟨?_, ?_⟩
  · have := ((State.like_report _).trans ended).eq_with
    rw [← reserved] at this
    exact this
  · rw [f.replies]
    exact (((State.adds_takeEndEvent ((s.withStarts settled).runOut h) h).trans (State.adds_report _)).replies).symm

/-- The starts of an event (R51, R52). -/
theorem State.Finish.startsFrom : s.StartsFrom settled t := by
  refine ⟨f.of_none quiet, fun ready => ?_, fun g e on => f.started hu on, fun i a e wait ready others current next => ?_⟩
  · refine f.of_withStarts quiet (hu.startReady_withStarts rfl Flight.none_ne_homeless fun i e hi => ?_)
    rw [← f.work.readyDesc] at hi
    exact (f.work.readyOn i e).mp (ready i e hi)
  · have ready' : u.readyDesc i = some e := by rw [← f.work.readyDesc]; exact ready
    have cycle := State.startCycle_eq (State.readyDesc_iff.mp ready').2.2
    refine ⟨fun range => ⟨?_, f.replies⟩, fun range kind => ⟨?_, f.replies⟩, fun range dwell => f.passes hu quiet wait ready others next range dwell⟩
    · refine f.fails hu quiet wait ready others current next ?_
      rw [cycle, range]
      rfl
    · refine f.fails hu quiet wait ready others current next ?_
      rw [cycle, if_pos range, ← f.work.store, if_pos kind]

end

end Sys2Proof.Machine
end

section
/-! The end of an event and of an answered frame (R52, R160, R169); SETTLE_TIMER_EXPIRY (R58). -/

namespace Sys2Proof.Machine

variable {s t u v settled : State} {k : Flight} {h g : Head} {d : ClassDesc} {src : Byte}

/-- An event whose work changes nothing changes nothing. -/
theorem event_of_still {work : State → State} (taking : s.Taking) (still : work s = s) : event work s = .next s := by
  rw [event, takes_free taking.1, still, State.report_of_silent taking.2.2.1]

/-- The end of an event from a state with nothing reported. -/
theorem State.Finish.of_event (silent : s.notices.reported = {}) (free : s.resetHeld = false) :
    s.Finish s s s.startReady.closeCarriers.report where
  work := .refl s
  result := (State.like_report _).symm
  reserved := by
    refine (State.reserved_of_port (s := s) ?_)
    rw [State.report_port, State.closeCarriers_port, State.startReady_port]
  enables := by
    have : s.startReady.closeCarriers.report.port = s.port := by
      rw [State.report_port, State.closeCarriers_port, State.startReady_port]
    exact congrArg (fun p => p.2.1) this
  places _ hf := (State.adds_report _).mem hf
  replies := (((s.adds_startReady).trans (State.adds_closeCarriers _)).trans (State.adds_report _)).replies
  outcome := .refl s
  outcomeReserved := rfl
  free := free
  still starts := by
    rw [starts, State.report_of_silent (by rw [State.withStarts_notices]; exact silent)]
    exact ⟨rfl, rfl⟩

/-- The end of an answered frame that is taken, from a state with nothing reported and no place reserved. -/
theorem State.Finish.of_answer (silent : s.notices.reported = {}) (free : s.resetHeld = false)
    (unreserved : s.ring.reserved = false) (tag : Byte) (payload : List Byte) :
    s.Finish (s.replied src tag payload) s.reserving
      (s.reserving.startReady.closeCarriers.report.placeReply (s.replyTo src tag payload)) where
  work := (State.like_reserving s).symm
  result := ((State.like_placeReply _ _).trans (State.like_report _)).symm
  reserved := unreserved.symm
  enables := by
    have : s.reserving.startReady.closeCarriers.report.port = s.reserving.port := by
      rw [State.report_port, State.closeCarriers_port, State.startReady_port]
    exact congrArg (fun p => p.2.1) this
  places _ hf := List.mem_append_left _ ((State.adds_report _).mem hf)
  replies := by
    have adds := ((s.reserving.adds_startReady).trans (State.adds_closeCarriers _)).trans (State.adds_report _)
    show List.filter _ (s.reserving.startReady.closeCarriers.report.ring.general ++ [_]) =
      List.filter _ (s.ring.general ++ [_])
    rw [List.filter_append, List.filter_append, adds.replies]
    rfl
  outcome := (State.like_queued s _).symm
  outcomeReserved := rfl
  free := free
  still starts := by
    rw [starts, State.report_of_silent (by rw [State.withStarts_notices]; exact silent)]
    exact ⟨rfl, rfl⟩

/-- No carrier closes where the contexts hold the same records and the entries the same counts. -/
theorem State.closes_congr (held : ∀ j, (t.ctxAt j).heldRecord = (s.ctxAt j).heldRecord) {c x : CarrierEntry}
    (id : x.id = c.id) (live : x.live = c.live) (closing : x.closing = c.closing) : t.closes x = s.closes c := by
  unfold State.closes
  rw [State.holdsRecordOf_congr held, id, live, closing]

/-- The state with a carrier marked released, and the requirement of its heads met (R55). -/
def State.released (s : State) (id : CarrierId) : State :=
  (s.modCarrier id fun x => { x with released := true }).mapReqs (fun a => a.carrier = id) fun r => { r with released := true }

/-- A place is free where an answered frame is taken. -/
theorem State.Takes.sound_reserving (takes : s.Takes src) (lawful : s.Lawful) : s.reserving.Sound Flight.none := by
  refine lawful.sound.reserving ?_
  simp [RingPort.hasPlace, takes.1.2.1, takes.2.2]

/-- Two bytes hold a number modulo 65536. -/
theorem be16_mod (n : Nat) : be16 (n % 65536) = be16 n := by
  have high : n % 65536 / 256 % 256 = n / 256 % 256 := by omega
  have low : n % 65536 % 256 = n % 256 := by omega
  simp only [be16, List.cons.injEq, and_true]
  exact ⟨BitVec.eq_of_toNat_eq (by simpa using high), BitVec.eq_of_toNat_eq (by simp [low])⟩

theorem id32At_be32 (id : CarrierId) : id32At (be32 id.toNat) 0 = id := by
  have bound := id.isLt
  have high := u16At_be16 (n := id.toNat / 65536) (by omega) (be16 (id.toNat % 65536))
  have low := u16At_be16 (n := id.toNat % 65536) (by omega) []
  have split : be32 id.toNat = be16 (id.toNat / 65536) ++ be16 (id.toNat % 65536) := by
    rw [be16_mod]
    rfl
  have tail : u16At (be32 id.toNat) 2 = u16At (be16 (id.toNat % 65536) ++ []) 0 := by
    rw [split, List.append_nil]
    exact u16At_append _ _ 0
  rw [id32At, tail, low, split, high]
  refine BitVec.eq_of_toNat_eq ?_
  rw [BitVec.toNat_ofNat]
  omega

/-! ### The marks of a carrier (R53, R55) -/

/-- States that differ in their contexts alone are the same where each context is. -/
theorem State.eq_of_ctx {a b : PerHead HeadCtx} (hab : ∀ j, ({ s with ctx := a } : State).ctxAt j =
    ({ s with ctx := b } : State).ctxAt j) : ({ s with ctx := a } : State) = { s with ctx := b } := by
  have : a = b := Vector.ext fun i hi => hab ⟨i, hi⟩
  rw [this]

/-- The requirements of the heads in ARMING whose assignment names a carrier are those of its promoted assignments. -/
theorem State.Sound.marked_eq (hs : s.Sound k) (id : CarrierId) (f : CarrierEntry → CarrierEntry)
    (r : Requirements → Requirements) :
    (s.modCarrier id f).mapReqs (fun a => a.carrier = id) r = (s.withCarrier id f).withReqs (s.namesCarrier id) r := by
  refine State.eq_of_ctx (s := s.modCarrier id f) fun j => ?_
  show ((s.modCarrier id f).mapReqs (fun a => a.carrier = id) r).ctxAt j =
    ((s.modCarrier id f).withReqs (s.namesCarrier id) r).ctxAt j
  rw [State.mapReqs_ctxAt, State.withReqs_ctxAt, State.modCarrier_ctxAt]
  by_cases arming : (s.ctxAt j).state = .arming
  · obtain ⟨a, ha⟩ := HeadCtx.promoted_current ((hs.heads j).arming arming).1
    have named : s.namesCarrier id j = decide (a.carrier = id) := by simp [State.namesCarrier, ha]
    by_cases hid : a.carrier = id
    · simp [arming, ha, named, hid]
    · rw [if_neg (by simp [ha, hid]), if_neg (by simp [named, hid])]
  · simp [arming]

theorem State.reserving_marked (s : State) (id : CarrierId) (f : CarrierEntry → CarrierEntry)
    (p : Assignment → Bool) (r : Requirements → Requirements) :
    (s.reserving.modCarrier id f).mapReqs p r = ((s.modCarrier id f).mapReqs p r).reserving := by
  refine State.ext_at ?_ ?_ ?_ ?_ (fun e => ?_) ?_ (fun j => ?_) (fun j => ?_) (fun j => ?_) ?_ ?_ ?_
  all_goals rfl

/-- The marks of an open carrier close no entry. -/
theorem State.marked_quiet {id : CarrierId} {f : CarrierEntry → CarrierEntry} {p : Assignment → Bool}
    {r : Requirements → Requirements} (hf : ∀ c, (f c).id = c.id ∧ (f c).live = c.live ∧ (f c).closing = c.closing)
    (quiet : ∀ c ∈ s.carriers, s.closes c = false) :
    ∀ c ∈ ((s.modCarrier id f).mapReqs p r).carriers, ((s.modCarrier id f).mapReqs p r).closes c = false := by
  intro c hc
  have table : ((s.modCarrier id f).mapReqs p r).carriers = s.carriers.map fun c => if c.id = id then f c else c := rfl
  rw [table] at hc
  obtain ⟨x, hx, rfl⟩ := List.mem_map.mp hc
  have held (j : Head) : (((s.modCarrier id f).mapReqs p r).ctxAt j).heldRecord = (s.ctxAt j).heldRecord := by
    rw [State.mapReqs_ctxAt]
    rfl
  rw [State.closes_congr (c := x) held]
  · exact quiet x hx
  all_goals
    split
    · simp only [hf x]
    · rfl

/-! ### Foreign frames (R156, R165) -/

/-- A report places at most one ATTENTION. -/
theorem State.report_general (s : State) : s.report.ring.general = s.ring.general ∨
    ∃ f : Frame, f.kind = 0x07 ∧ s.report.ring.general = s.ring.general ++ [f] := by
  have offered (u : State) (lost : Causes) : (u.offerAttention lost).ring.general = u.ring.general ∨
      ∃ f : Frame, f.kind = 0x07 ∧ (u.offerAttention lost).ring.general = u.ring.general ++ [f] := by
    unfold State.offerAttention
    split
    · exact .inr ⟨u.attentionFrame, rfl, rfl⟩
    · exact .inl rfl
  unfold State.report
  dsimp only
  split
  · exact offered (s.modNotices _) _
  · exact .inl rfl

/-- A foreign frame counts below the limit of its counter, and the rise is a RING event. -/
theorem State.raiseForeign_of_lt (hn : s.ring.counters.foreign < Config.countLimit) : s.raiseForeign =
    { s with ring := { s.ring with counters := s.foreignCounted },
             notices := { s.notices with reported := { s.notices.reported with ring := true } } } := by
  unfold State.raiseForeign State.raise
  simp only [if_pos hn]
  rfl

/-- At the limit of its counter a foreign frame changes nothing. -/
theorem State.raiseForeign_of_full (hn : s.ring.counters.foreign = Config.countLimit) : s.raiseForeign = s := by
  unfold State.raiseForeign State.raise
  simp only [hn, lt_irrefl, if_false]
  have same : bump Config.countLimit = s.ring.counters.foreign := by rw [hn]; rfl
  rw [same]
  rfl

/-- A frame that the part has no use for changes nothing but the counter of foreign frames. -/
theorem State.onlyCounts_foreign (taking : s.Taking) (bounded : s.CountersBounded) :
    s.OnlyCounts s.raiseForeign.report s.foreignCounted := by
  obtain ⟨-, -, -, bound⟩ := bounded
  obtain ⟨free, unreserved, silent, -⟩ := taking
  by_cases hn : s.ring.counters.foreign < Config.countLimit
  · have risen : s.foreignCounted ≠ s.ring.counters := by
      intro e
      have := congrArg Counters.foreign e
      simp only [State.foreignCounted, raised] at this
      simp only [Config.countLimit] at hn
      omega
    have raised := State.raiseForeign_of_lt hn
    have port := State.report_port s.raiseForeign
    rw [raised] at port
    have shape := s.raiseForeign.report_eq
    have general := s.raiseForeign.report_general
    have detected := s.raiseForeign.report_detected
    rw [raised] at shape general detected ⊢
    exact ⟨shape, congrArg (fun p => p.2.1) port, general, fun _ => detected.trans (by simp [silent]),
      fun e => absurd e risen⟩
  · have full : s.ring.counters.foreign = Config.countLimit := le_antisymm bound (not_lt.mp hn)
    have same : s.foreignCounted = s.ring.counters := by
      unfold State.foreignCounted raised
      rw [full]
      have : min (Config.countLimit + 1) 65535 = s.ring.counters.foreign := by rw [full]; rfl
      rw [this]
    rw [State.raiseForeign_of_full full, State.report_of_silent silent, same]
    exact ⟨rfl, rfl, .inl rfl, fun h => absurd rfl h, fun _ => rfl⟩

end Sys2Proof.Machine

open Sys2Proof Sys2Proof.Machine

/-- Settles O52: the timer's end meets the requirement, and the starts follow. -/
theorem settleExpiryMeets : Obligations.SettleExpiryMeets := by
  unfold Obligations.SettleExpiryMeets
  intro s h taking
  refine ⟨fun timer => event_of_still taking (if_neg timer), fun timer lawful settled => ?_⟩
  have sound := lawful.sound.settleDone h rfl
  have held (j : Head) : ((s.settleDone h).ctxAt j).heldRecord = (s.ctxAt j).heldRecord :=
    State.modCtx_view HeadCtx.heldRecord rfl j
  refine ⟨(s.settleDone h).startReady.closeCarriers.report, ?_, State.Finish.startsFrom
    (State.Finish.of_event taking.2.2.1 taking.1) sound fun c hc =>
      (State.closes_congr held rfl rfl rfl).trans (settled.2 c hc)⟩
  show execSettleTimerExpiry h s = _
  rw [execSettleTimerExpiry, event, takes_free taking.1, if_pos timer]

/-- Settles O48: the mark of the carrier and the requirements of its heads, the starts that follow, and the reply. -/
theorem releaseMarks : Obligations.ReleaseMarks := by
  unfold Obligations.ReleaseMarks
  intro s src tag id takes
  have read := id32At_be32 id
  have length : (be32 id.toNat).length = 4 := rfl
  have runs : exec (.release src tag (be32 id.toNat)) s =
      .next (answered 0x04 0x00 src tag (releaseWork (be32 id.toNat)) s) := by
    show execRelease src tag _ s = _
    rw [execRelease, takes_free takes.1.1]
  have work : releaseWork (be32 id.toNat) s.reserving = match s.carrierAt id with
      | none => .refuse s.reserving .unknownCarrier
      | some c => if c.released || c.closing then .ok s.reserving [] else .ok (s.reserving.releaseCarrier c.id) [] := by
    unfold releaseWork
    rw [if_neg (by simp [length]), read]
    rfl
  refine ⟨fun none => ?_, fun k found => ⟨fun idle => ?_, fun open1 open2 lawful settled => ?_⟩⟩
  · rw [none] at work
    rw [runs, answered_still takes _ (by rw [work]; rfl), work]
    rfl
  · rw [found] at work
    have marked : (k.released || k.closing) = true := by simpa using idle
    simp only [marked, if_true] at work
    rw [runs, answered_still takes _ (by rw [work]; rfl), work]
    rfl
  · rw [found] at work
    have kept : k.id = id := (State.carrierAt_mem found).2
    simp only [open1, open2, kept, Bool.or_self, Bool.false_eq_true, if_false] at work
    have marked : s.released id = (s.withCarrier id fun x => { x with released := true }).withReqs (s.namesCarrier id)
        fun r => { r with released := true } := lawful.sound.marked_eq id _ _
    have moved : (s.reserving.modCarrier id fun x => { x with released := true }).mapReqs (fun a => a.carrier = id)
        (fun r => { r with released := true }) = (s.released id).reserving := s.reserving_marked id _ _ _
    have sound := (takes.sound_reserving lawful).carrierMarked (id := id) (purge := CarrierEntry.purge)
      (released := fun _ => true) (f := fun r => { r with released := true }) fun c _ _ b i n => rfl
    rw [moved] at sound
    have quiet : ∀ c ∈ (s.released id).carriers, (s.released id).closes c = false :=
      State.marked_quiet (fun _ => ⟨rfl, rfl, rfl⟩) settled.2
    have released : s.reserving.releaseCarrier id = (s.released id).reserving.startReady.closeCarriers := by
      rw [← moved]
      rfl
    have finish := State.Finish.of_answer (s := s.released id) (src := src) takes.1.2.2.1 takes.1.1 takes.1.2.1 tag
      [0x04, 0x00, 0x00]
    dsimp only
    rw [← marked]
    refine ⟨_, ?_, finish.startsFrom sound quiet⟩
    rw [runs, answered_taken takes, work, Answer.ok_state, released]
    rfl

/-- Settles O49: the mark of the carrier and the requirements of its heads, and the starts that follow. -/
theorem purgeOkMarks : Obligations.PurgeOkMarks := by
  unfold Obligations.PurgeOkMarks
  intro s src id taking sends
  have runs (t : State) (ht : (s.purgeOk id).report = t) : exec (.purgeOk src id) s = .next t := by
    show execPurgeOk src id s = _
    rw [execPurgeOk, unanswered, takes_free taking.1, consumed_sending sends, ht]
  refine ⟨fun none bounded => ⟨_, runs _ rfl, ?_⟩, fun found lawful settled => ⟨_, runs _ rfl, ?_⟩⟩
  · have foreign : s.purgeOk id = s.raiseForeign := by rw [State.purgeOk, none]; rfl
    rw [foreign]
    exact State.onlyCounts_foreign taking bounded
  · have marked := lawful.sound.marked_eq id (fun x => { x with purge := .ok }) fun r => { r with purge := true }
    have sound := lawful.sound.setPurge id .ok
    have quiet := State.marked_quiet (id := id) (f := fun x => { x with purge := .ok }) (p := fun a => a.carrier = id)
      (r := fun r => { r with purge := true }) (fun _ => ⟨rfl, rfl, rfl⟩) settled.2
    have work : s.purgeOk id = ((s.modCarrier id fun x => { x with purge := .ok }).mapReqs (fun a => a.carrier = id)
        fun r => { r with purge := true }).startReady.closeCarriers := by
      rw [State.purgeOk, if_pos found]
      rfl
    rw [work, ← marked]
    exact State.Finish.startsFrom (State.Finish.of_event taking.2.2.1 taking.1) sound quiet
end

section
/-! A class descriptor is read back from its bytes (R24, R167), and the matching of a load (R36, R37). -/

namespace Sys2Proof.Machine

variable {s t u v : State} {k : Flight} {h g : Head} {d : ClassDesc} {src : Byte} {e : EntryIx}

/-! ### The trims (R24) -/

theorem be16s_length (i : Int) : (be16s i).length = 2 := rfl

theorem i16At_be16s {i : Int} (lo : -32768 ≤ i) (hi : i ≤ 32767) (after : List Byte) : i16At (be16s i ++ after) 0 = i := by
  rw [i16At, be16s, id16At_be16, BitVec.toInt_ofInt]
  exact Int.bmod_eq_of_le (by omega) (by omega)

theorem i16At_append (a b : List Byte) (i : Nat) : i16At (a ++ b) (a.length + i) = i16At b i := by
  rw [i16At, i16At, id16At, id16At, u16At_append]

/-- The trims are read back from their bytes. -/
theorem trimsAt_append (before : List Byte) {ts : List Int} (range : ∀ t ∈ ts, -32768 ≤ t ∧ t ≤ 32767) :
    trimsAt (before ++ ts.flatMap be16s) before.length ts.length = ts := by
  induction ts generalizing before with
  | nil => rfl
  | cons t ts ih =>
    obtain ⟨lo, hi⟩ := range t List.mem_cons_self
    have next := ih (before ++ be16s t) fun x hx => range x (List.mem_cons_of_mem _ hx)
    rw [List.length_append, be16s_length, List.append_assoc] at next
    rw [List.length_cons, trimsAt, List.flatMap_cons, next, ← Nat.add_zero before.length, i16At_append,
      i16At_be16s lo hi]

/-! ### The descriptor (R24, R167) -/

theorem u16At_bytes {n : Nat} (hn : n < 65536) : (BitVec.ofNat 8 (n / 256)).toNat * 256 + (BitVec.ofNat 8 n).toNat = n :=
  u16At_be16 hn []

theorem u8At_byte {n : Nat} (hn : n < 256) : (BitVec.ofNat 8 n).toNat = n := u8At_be8 hn []

theorem retentionOf_code (r : Retention) : retentionOf (retentionCode r) = some r := by cases r <;> rfl

/-- The fields of a descriptor fit their bytes. -/
structure ClassDesc.Fits (d : ClassDesc) : Prop where
  start : d.start < 65536
  firstPage : d.firstPage < 256
  pageCount : d.pageCount < 256
  liquidus : d.liquidus < 65536
  maxTemp : d.maxTemp < 65536
  minWet : d.minWet < 65536
  kp : d.kp < 65536
  ki : d.ki < 65536
  settle : d.settle < 65536
  trims : ∀ t ∈ d.trims, -32768 ≤ t ∧ t ≤ 32767
  count : d.trims.length = 2 ^ d.span.val

theorem descBytes_length (d : ClassDesc) : (descBytes d).length = 21 + 2 * d.trims.length := by
  have trims (ts : List Int) : (ts.flatMap be16s).length = 2 * ts.length := by
    induction ts with
    | nil => rfl
    | cons t ts ih => rw [List.flatMap_cons, List.length_append, ih, be16s_length, List.length_cons]; omega
  rw [descBytes, List.length_append, trims]
  rfl

theorem descHeadBytes_length (d : ClassDesc) : (descHeadBytes d).length = 21 := rfl

theorem trimCount_lt (fits : d.Fits) : d.trims.length < 256 := by
  have span : d.span.val ≤ 3 := Nat.le_of_lt_succ d.span.isLt
  rw [fits.count]
  exact Nat.lt_of_le_of_lt (Nat.pow_le_pow_right (by decide) span) (by decide)

theorem trimsAt_descBytes (fits : d.Fits) : trimsAt (descBytes d) 21 d.trims.length = d.trims := by
  rw [← descHeadBytes_length d]
  exact trimsAt_append (descHeadBytes d) fits.trims

theorem trimCount_descBytes (fits : d.Fits) : u8At (descBytes d) 20 = d.trims.length := u8At_byte (trimCount_lt fits)

theorem span_descBytes (d : ClassDesc) : u8At (descBytes d) 2 = d.span.val :=
  u8At_byte (Nat.lt_trans d.span.isLt (by decide))

theorem retention_descBytes (d : ClassDesc) : retentionOf (u8At (descBytes d) 3) = some d.retention := by
  have code : retentionCode d.retention < 256 := by cases d.retention <;> decide
  rw [show u8At (descBytes d) 3 = retentionCode d.retention from u8At_byte code, retentionOf_code]

theorem pages_descBytes (fits : d.Fits) : u8At (descBytes d) 6 = d.firstPage ∧ u8At (descBytes d) 7 = d.pageCount :=
  ⟨u8At_byte fits.firstPage, u8At_byte fits.pageCount⟩

/-- The descriptor with the clamps of R24. -/
def ClassDesc.clamp (d : ClassDesc) : ClassDesc :=
  { d with liquidus := min d.liquidus 16000, maxTemp := min d.maxTemp 16000, kp := min d.kp 4095,
           ki := min d.ki 1023, settle := min d.settle 5000, trims := d.trims.map clampTrim }

theorem descBytes_eq (d : ClassDesc) : descBytes d =
    be16 d.classId.toNat ++ (be8 d.span.val ++ (be8 (retentionCode d.retention) ++ (be16 d.start ++ (be8 d.firstPage ++
      (be8 d.pageCount ++ (be16 d.liquidus ++ (be16 d.maxTemp ++ (be16 d.minWet ++ (be16 d.kp ++ (be16 d.ki ++
        (be16 d.settle ++ (be8 d.trims.length ++ d.trims.flatMap be16s)))))))))))) := by
  simp only [descBytes, descHeadBytes, List.append_assoc]

theorem u16At_after_be16 (n : Nat) (p : List Byte) (i : Nat) : u16At (be16 n ++ p) (i + 2) = u16At p i := rfl
theorem u16At_after_be8 (n : Nat) (p : List Byte) (i : Nat) : u16At (be8 n ++ p) (i + 1) = u16At p i := rfl

/-- The words of a descriptor are read back. -/
theorem words_descBytes (fits : d.Fits) :
    u16At (descBytes d) 4 = d.start ∧ u16At (descBytes d) 8 = d.liquidus ∧ u16At (descBytes d) 10 = d.maxTemp ∧
      u16At (descBytes d) 12 = d.minWet ∧ u16At (descBytes d) 14 = d.kp ∧ u16At (descBytes d) 16 = d.ki ∧
      u16At (descBytes d) 18 = d.settle := by
  rw [descBytes_eq]
  simp only [u16At_after_be16, u16At_after_be8]
  exact ⟨u16At_be16 fits.start _, u16At_be16 fits.liquidus _, u16At_be16 fits.maxTemp _, u16At_be16 fits.minWet _,
    u16At_be16 fits.kp _, u16At_be16 fits.ki _, u16At_be16 fits.settle _⟩

theorem classId_descBytes (d : ClassDesc) : id16At (descBytes d) 0 = d.classId := by
  have word : u16At (descBytes d) 0 = d.classId.toNat := u16At_bytes d.classId.isLt
  rw [id16At, word, BitVec.ofNat_toNat, BitVec.setWidth_eq]

theorem descAt_descBytes (fits : d.Fits) : descAt (descBytes d) d.span d.retention = d.clamp := by
  obtain ⟨start, liquidus, maxTemp, minWet, kp, ki, settle⟩ := words_descBytes fits
  obtain ⟨first, pages⟩ := pages_descBytes fits
  rw [descAt, classId_descBytes, start, first, pages, liquidus, maxTemp, minWet, kp, ki, settle,
    trimCount_descBytes fits, trimsAt_descBytes fits, ClassDesc.clamp]

/-- A descriptor that passes the checks of R24 is read from its bytes with the clamps of R24. -/
theorem checkLoad_descBytes (fits : d.Fits) (some : 1 ≤ d.pageCount) (most : d.pageCount ≤ 64)
    (inside : d.firstPage + d.pageCount ≤ 64) : checkLoad (descBytes d) = .ok d.clamp := by
  obtain ⟨first, pages⟩ := pages_descBytes fits
  have length := descBytes_length d
  have read := descAt_descBytes fits
  have span := span_descBytes d
  have retention := retention_descBytes d
  have count := trimCount_descBytes fits
  generalize descBytes d = bytes at *
  unfold checkLoad
  rw [if_neg (by rw [length, count, span, fits.count]; omega), dif_pos (by rw [span]; exact d.span.isLt), retention]
  simp only [first, pages, if_pos (And.intro some (And.intro most inside)), span, Fin.eta, read]

/-- A clamped descriptor is read back from its bytes. -/
theorem checkLoad_of_clamped (clamped : d.Clamped (clearLow d.classId d.span)) (start : d.start < 65536)
    (minWet : d.minWet < 65536) : checkLoad (descBytes d) = .ok d := by
  obtain ⟨-, pages, inside, liquidus, maxTemp, kp, ki, settle, count, trims⟩ := clamped
  have fits : d.Fits :=
    { start, minWet, count, firstPage := by omega, pageCount := by omega, liquidus := by omega, maxTemp := by omega,
      kp := by omega, ki := by omega, settle := by omega,
      trims := fun t ht => by have := trims t ht; omega }
  have same : d.trims.map clampTrim = d.trims := by
    refine (List.map_congr_left fun t ht => ?_).trans (List.map_id _)
    have := trims t ht
    unfold clampTrim
    simp only [id]
    omega
  rw [checkLoad_descBytes fits pages (by omega) inside, ClassDesc.clamp, same, min_eq_left liquidus, min_eq_left maxTemp, min_eq_left kp,
    min_eq_left ki, min_eq_left settle]

/-! ### The matching (R36, R37) -/

/-- The entry fetches class id `c`. -/
def EntryBody.fetches (b : EntryBody) (c : ClassId) : Bool :=
  match b with
  | .fetching tag _ => tag = c
  | _ => false

theorem EntryBody.fetches_iff {b : EntryBody} {c : ClassId} : b.fetches c = true ↔ ∃ n, b = .fetching c n := by
  cases b <;> simp [EntryBody.fetches]

theorem State.loadTarget_eq (s : State) (c : ClassId) : s.loadTarget c =
    ((allEntries.find? fun e => (s.entryAt e).body.fetches c).elim
      ((allEntries.find? fun e => (s.entryAt e).body.isResident && (s.entryAt e).body.matchesId c).elim
        (s.victim.elim .full .target) fun e => if (s.entryAt e).users = 0 then .target e else .refused .inUse e)
      .target) := by
  unfold State.loadTarget
  show (match allEntries.find? fun e => (s.entryAt e).body.fetches c with | some e => _ | none => _) = _
  cases allEntries.find? fun e => (s.entryAt e).body.fetches c with
  | some e => rfl
  | none =>
    cases allEntries.find? fun e => (s.entryAt e).body.isResident && (s.entryAt e).body.matchesId c with
    | some e => rfl
    | none => cases s.victim <;> rfl

theorem find_unique {p : EntryIx → Bool} (he : p e = true) (one : ∀ f, p f = true → f = e) :
    allEntries.find? p = some e := by
  cases found : allEntries.find? p with
  | none => exact absurd he (List.find?_eq_none.mp found e (mem_allEntries e))
  | some f => rw [one f (List.find?_some found)]

/-- The target of R36, by its three cases. -/
theorem State.LoadGoesTo.target {c : ClassId} (goes : s.LoadGoesTo c e) (one : s.OneMatch) : s.loadTarget c = .target e := by
  have matched {f : EntryIx} (hf : (s.entryAt f).body.fetches c = true) : (s.entryAt f).body.matchesId c = true := by
    obtain ⟨n, body⟩ := EntryBody.fetches_iff.mp hf
    rw [body]
    exact EntryBody.fetching_matches.mpr rfl
  have none_fetches (idle : ∀ f n, (s.entryAt f).body ≠ .fetching c n) :
      (allEntries.find? fun e => (s.entryAt e).body.fetches c) = none :=
    List.find?_eq_none.mpr fun f _ hf => (EntryBody.fetches_iff.mp hf).elim (idle f)
  rw [State.loadTarget_eq]
  obtain ⟨n, fetching⟩ | ⟨idle, resident, hit, users⟩ | ⟨missed, victim⟩ := goes
  · have he : (s.entryAt e).body.fetches c = true := EntryBody.fetches_iff.mpr ⟨n, fetching⟩
    rw [find_unique he fun f hf => one c f e (matched hf) (matched he)]
    rfl
  · have found := find_unique (e := e) (p := fun e => (s.entryAt e).body.isResident && (s.entryAt e).body.matchesId c)
      (by rw [resident, hit]; rfl) fun f hf => one c f e (Bool.and_eq_true_iff.mp hf).2 hit
    rw [none_fetches idle, found]
    exact if_pos users
  · have idle : ∀ f n, (s.entryAt f).body ≠ .fetching c n := fun f n hf => by
      have := matched (EntryBody.fetches_iff.mpr ⟨n, hf⟩)
      rw [missed f] at this
      exact absurd this (by decide)
    have found : (allEntries.find? fun e => (s.entryAt e).body.isResident && (s.entryAt e).body.matchesId c) = none :=
      List.find?_eq_none.mpr fun f _ => by simp [missed f]
    rw [none_fetches idle, found, victim]
    rfl

/-- A load goes to its target where no other entry in use stands in the way. -/
theorem State.matchLoad_target (one : s.OneMatch) (goes : s.LoadGoesTo d.classId e)
    (free : ∀ f, s.covered d e f = true → (s.entryAt f).body.isResident = true → (s.entryAt f).users = 0) :
    s.matchLoad d = .target e := by
  have found := goes.target one
  have clear : s.overlapInUse e (clearLow d.classId d.span) d.span = none := by
    refine List.find?_eq_none.mpr fun f _ hf => ?_
    simp only [Bool.and_eq_true, decide_eq_true_eq] at hf
    obtain ⟨⟨⟨hne, resident⟩, used⟩, overlaps⟩ := hf
    have := free f (by simp [State.covered, overlaps, hne]) resident
    omega
  unfold State.matchLoad
  rw [found]
  simp only [clear]

end Sys2Proof.Machine
end

section
/-! The load of a class (R36 to R39). -/

namespace Sys2Proof.Machine

variable {s t u v : State} {k : Flight} {h g : Head} {d : ClassDesc} {src : Byte} {e : EntryIx}

theorem State.reserving_loaded (s : State) (d : ClassDesc) (e : EntryIx) :
    s.reserving.loaded d e = (s.loaded d e).reserving := rfl

/-- A load that finds no head waiting is the state of the statement. -/
theorem State.applyLoad_of_no_wait (cs : s.CacheSound k) (fits : s.LoadFits d e) (wait : s.cache.wait = [])
    (settled : s.cache.retryOwed = false) : s.applyLoad e d = s.loaded d e := by
  have empty : (s.loaded d e).oweRetry.cache.wait = [] := wait
  have owed : (s.loaded d e).cache.retryOwed = false := settled
  rw [State.applyLoad_eq cs fits, State.runRetry_of_no_wait empty]
  generalize s.loaded d e = v at owed
  obtain ⟨_, _, _, _, _, ⟨_, _, _, _⟩⟩ := v
  cases owed
  rfl

/-- A load closes no carrier. -/
theorem State.loaded_closes (s : State) (d : ClassDesc) (e : EntryIx) (c : CarrierEntry) :
    (s.loaded d e).closes c = s.closes c :=
  State.closes_congr (fun j => by
    rw [State.loaded_ctxAt]
    split <;> rfl) rfl rfl rfl

end Sys2Proof.Machine

open Sys2Proof Sys2Proof.Machine

/-- Settles O36: the load as the state of the statement, the starts that follow, and the reply. -/
theorem classloadFills : Obligations.ClassloadFills := by
  unfold Obligations.ClassloadFills
  intro s src tag d e takes lawful settled wait clamped start minWet goes free
  have sound := takes.sound_reserving lawful
  have matched : s.reserving.matchLoad d = .target e := State.matchLoad_target lawful.oneMatch goes free
  have fits := State.matchLoad_fits sound.cache clamped matched
  have loads : s.reserving.applyLoad e d = (s.loaded d e).reserving :=
    (State.applyLoad_of_no_wait sound.cache fits wait takes.1.2.2.2).trans (State.reserving_loaded s d e)
  have work : classloadWork (descBytes d) s.reserving =
      .ok ((s.loaded d e).reserving.startReady.closeCarriers) (be8 e.val) := by
    unfold classloadWork
    simp only [checkLoad_of_clamped clamped start minWet, matched, loads]
  have quiet : ∀ c ∈ (s.loaded d e).carriers, (s.loaded d e).closes c = false := fun c hc =>
    (s.loaded_closes d e c).trans (settled.2 c hc)
  have finish := State.Finish.of_answer (s := s.loaded d e) (src := src) takes.1.2.2.1 takes.1.1 takes.1.2.1 tag
    [0x05, 0x00, 0x00, BitVec.ofNat 8 e.val]
  refine ⟨_, ?_, finish.startsFrom (loads ▸ sound.applyLoad fits) quiet⟩
  show execClassload src tag _ s = _
  rw [execClassload, takes_free takes.1.1, answered_taken takes, work, Answer.ok_state]
  rfl
end

section
/-! The end of a running cycle with the start that follows (R52, R71 to R74), and the expiries that bring it (R12, R68,
R96). -/

namespace Sys2Proof.Machine

variable {s t u v : State} {k : Flight} {h g : Head} {d : ClassDesc} {a : Assignment}

/-- The state with the notices and the general queue of another one. -/
def State.announcedAs (s t : State) : State :=
  { s with notices := t.notices, ring := { s.ring with general := t.ring.general } }

theorem State.like_announcedAs (s t : State) : s.Like (s.announcedAs t) := rfl

/-- The state after an event, up to the starts that follow. -/
theorem State.Sound.announced_startsFrom (hu : u.Sound Flight.none) (free : u.resetHeld = false)
    (quiet : ∀ c ∈ u.carriers, u.closes c = false) (ht : u.startReady.closeCarriers.report = t) :
    (u.announcedAs t).StartsFrom (u.announcedAs t) t := by
  have port : t.port = u.port := by
    rw [← ht, State.report_port, State.closeCarriers_port, State.startReady_port]
  have finish : (u.announcedAs t).Finish (u.announcedAs t) u t :=
    { work := (u.like_announcedAs t).symm
      result := ht ▸ (State.like_report _).symm
      reserved := State.reserved_of_port (s := u) port
      enables := rfl
      places := fun f hf => ht ▸ (State.adds_report _).mem hf
      replies := rfl
      outcome := .refl _
      outcomeReserved := rfl
      free := free
      still := fun _ => ⟨rfl, rfl⟩ }
  exact finish.startsFrom hu quiet

/-- The record of an ending at the running step. -/
theorem State.jointRecord_endingAt (current : (s.ctxAt h).current = some ⟨a, true⟩) (o : CycleOutcome) (c : Bool) :
    s.jointRecord h (s.endingAt h o c) = s.recordAt h o a := by
  simp only [State.jointRecord, State.endingAt, State.recordAt, current, Option.map_some, Option.getD_some]

section
variable (hv : v.Sound Flight.none) (heating : (v.ctxAt h).state = .heating) (wait : v.cache.wait = [])
  (current : (v.ctxAt h).current = some ⟨a, true⟩) (hd : v.boundDesc h = some d)
  (quiet : ∀ c ∈ v.carriers, v.closes c = false) (o : CycleOutcome) (cancel : Bool)
include hv heating wait current hd quiet

/-- The end of a cycle at its running step, up to the starts that follow (R71 to R74). -/
theorem State.Sound.endedAt (enables : t.notices.enables = v.notices.enables)
    (places : ∀ f ∈ (v.terminate h (v.endingAt h o cancel)).ring.general, f ∈ t.ring.general) :
    v.EndedWith ((v.terminate h (v.endingAt h o cancel)).closeCarriers.announcedAs t) h (v.recordAt h o a) d cancel := by
  rw [← State.jointRecord_endingAt current o cancel]
  refine hv.endedWith rfl rfl heating wait hd quiet _ (.refl v h) ⟨State.like_announcedAs _ t, places⟩ ?_ enables
  have port : (v.terminate h (v.endingAt h o cancel)).closeCarriers.port = v.port := by
    rw [State.closeCarriers_port, State.terminate_port]
  exact (State.reserved_of_port port : (v.terminate h (v.endingAt h o cancel)).closeCarriers.ring.reserved = _)

/-- The end of a cycle at its running step leaves what the statements say (R52, R71 to R74). -/
theorem State.Sound.cycleEnded (free : v.resetHeld = false)
    (ht : ((v.terminate h (v.endingAt h o cancel)).conclude).report = t) : v.CycleEnded t h o a d cancel := by
  have after := hv.terminate heating Flight.none_ne_homeless (v.endingAt h o cancel)
  rw [Flight.put_plain (by rfl), Flight.paid_of (by rfl)] at after
  refine ⟨_, hv.endedAt heating wait current hd quiet o cancel (t := t) ?_ fun f hf => ?_, ?_⟩
  · have port : t.port = v.port := by rw [← ht, State.report_port, State.conclude_port, State.terminate_port]
    exact congrArg (fun p => p.2.1) port
  · rw [← ht]
    refine (State.adds_report _).mem ((State.adds_closeCarriers _).mem ((State.adds_startReady _).mem ?_))
    rw [State.closeCarriers_ring]
    exact hf
  · refine after.closeCarriers.announced_startsFrom ?_ after.closeCarriers_settled ht
    refine (State.resetHeld_of_base ?_).trans free
    rw [State.closeCarriers_base, State.terminate_base]

end

/-- A step of a kind runs on a class. -/
theorem State.runningStep_iff {w : StepWord} {x : Kind} :
    s.runningStep h = some (w, x, d) ↔ (s.ctxAt h).step = some w ∧ w.kind? = some x ∧ s.boundDesc h = some d := by
  unfold State.runningStep State.runningKind
  cases hw : (s.ctxAt h).step with
  | none => simp
  | some v =>
    cases hd : s.boundDesc h with
    | none => simp
    | some e =>
      cases hk : v.kind? with
      | none =>
        simp only [Option.bind_some, hk, Option.some.injEq, reduceCtorEq, false_iff]
        rintro ⟨rfl, kind, -⟩
        rw [hk] at kind
        cases kind
      | some y =>
        simp only [Option.bind_some, hk, Option.some.injEq, Prod.mk.injEq]
        constructor
        · rintro ⟨rfl, rfl, rfl⟩
          exact ⟨rfl, hk, rfl⟩
        · rintro ⟨rfl, kind, rfl⟩
          exact ⟨rfl, Option.some.inj (hk.symm.trans kind), rfl⟩

theorem State.runningKind_of_step {w : StepWord} (hw : (s.ctxAt h).step = some w) : s.runningKind h = w.kind? := by
  rw [State.runningKind, hw]
  rfl

end Sys2Proof.Machine

open Sys2Proof Sys2Proof.Machine

/-- Settles O55: the expiries end the cycle at its running step, and one that is not due changes nothing. -/
theorem expiriesEndCycles : Obligations.ExpiriesEndCycles := by
  unfold Obligations.ExpiriesEndCycles
  intro s h taking
  refine ⟨fun idle => ?_, fun idle => ?_, fun a w k d lawful settled wait runs => ?_⟩
  · refine event_of_still taking (if_neg ?_)
    rintro ⟨heating, due⟩
    exact idle.elim (· heating) (· due)
  · refine event_of_still taking ?_
    split
    · next due =>
      obtain idle | idle | dwell | dwell := idle
      · exact absurd due.1 idle
      · exact absurd due.2 idle
      all_goals rw [dwell]; rfl
    · rfl
  · obtain ⟨heating, current, -, -, -, step⟩ := runs
    obtain ⟨running, kind, desc⟩ := State.runningStep_iff.mp step
    have kinds : s.runningKind h = some k := (State.runningKind_of_step running).trans kind
    have ends (o : CycleOutcome) : s.CycleEnded ((s.terminate h (s.endingNow h o)).conclude).report h o a d (k = .feed) := by
      have := lawful.sound.cycleEnded heating wait current desc settled.2 o (decide (k = .feed)) taking.1 rfl
      rw [State.endingNow, kinds]
      simpa using this
    refine ⟨fun due => ⟨_, ?_, ends .sensorLost⟩, fun due => ?_⟩
    · show execStalenessExpiry h s = _
      unfold execStalenessExpiry
      rw [event, takes_free taking.1, if_pos ⟨heating, due⟩]
    · have timeout (o : CycleOutcome) (ho : timeoutOf k = some o) :
          exec (.stepTimeout h) s = .next ((s.terminate h (s.endingNow h o)).conclude).report := by
        show execStepTimeout h s = _
        unfold execStepTimeout
        rw [event, takes_free taking.1, if_pos ⟨heating, due⟩, kinds, Option.bind_some, ho]
      refine ⟨?_, ?_, ?_⟩
      all_goals
        rintro rfl
        exact ⟨_, timeout _ rfl, ends _⟩
end

section
/-! The chain of an end event, in the words of the statements (R15 to R18). -/

namespace Sys2Proof.Machine

variable {s t u v : State} {k : Flight} {h g : Head} {d : ClassDesc} {a : Assignment} {w x : StepWord}

/-! ### The fuel of an end event (R18) -/

theorem ClassDesc.inRange_lt {n : Nat} (hn : d.inRange n = true) : n < 1024 := by
  simp only [ClassDesc.inRange, Bool.and_eq_true, decide_eq_true_eq] at hn
  exact hn.2

/-- A word in the prefetch slot of a head lies within the store. -/
def State.FetchesInside (s : State) (h : Head) : Prop :=
  ∀ w, (s.ctxAt h).prefetch = .word w → (s.ctxAt h).stepAddr + 1 < 1024

theorem State.prefetchFor_inside {n : Nat} (hp : s.prefetchFor h n w = .word x) : n + 1 < 1024 := by
  unfold State.prefetchFor at hp
  split at hp
  · split at hp
    · next hr =>
      obtain ⟨d, -, hr⟩ := (Option.any_eq_true _ _).mp hr
      exact ClassDesc.inRange_lt hr
    · cases hp
  · cases hp

theorem State.chainNext_own (s : State) (h : Head) (w : StepWord) :
    ((s.chainNext h w).ctxAt h).stepAddr = (s.ctxAt h).stepAddr + 1 ∧
      ((s.chainNext h w).ctxAt h).prefetch = (s.releaseClaims h).prefetchFor h ((s.ctxAt h).stepAddr + 1) w := by
  unfold State.chainNext State.startStep State.writeTier
  rw [State.modRow_ctxAt, State.modCtx_ctxAt, if_pos rfl]
  exact ⟨rfl, rfl⟩

theorem State.chainSegment_own (s : State) (h : Head) (w : StepWord) :
    ((s.chainSegment h w).ctxAt h).stepAddr = (s.ctxAt h).stepAddr + 1 ∧
      ((s.chainSegment h w).ctxAt h).prefetch = s.prefetchFor h ((s.ctxAt h).stepAddr + 1) w := by
  unfold State.chainSegment State.startSegment State.writeTier
  rw [State.modRow_ctxAt, State.modCtx_ctxAt, if_pos rfl]
  exact ⟨rfl, rfl⟩

theorem State.fetchesInside_chainNext (s : State) (h : Head) (w : StepWord) : (s.chainNext h w).FetchesInside h := by
  obtain ⟨addr, slot⟩ := s.chainNext_own h w
  intro x hx
  rw [slot] at hx
  rw [addr]
  exact State.prefetchFor_inside hx

theorem State.fetchesInside_chainSegment (s : State) (h : Head) (w : StepWord) : (s.chainSegment h w).FetchesInside h := by
  obtain ⟨addr, slot⟩ := s.chainSegment_own h w
  intro x hx
  rw [slot] at hx
  rw [addr]
  exact State.prefetchFor_inside hx

/-- A chain goes on to the word in the prefetch slot alone. -/
theorem decideEnd_prefetch {m : Nat} {c : HeadCtx} (hd : decideEnd w m c = .next x ∨ decideEnd w m c = .segment x) :
    c.prefetch = .word x := by
  have next (hn : nextDecision c.prefetch = .next x ∨ nextDecision c.prefetch = .segment x) : c.prefetch = .word x := by
    unfold nextDecision at hn
    split at hn
    · next v hv =>
      split at hn
      · simp at hn
      · simp only [EndDecision.next.injEq, reduceCtorEq, or_false] at hn
        rw [hv, hn]
    · simp at hn
  have segment (hn : segmentDecision w.code c.prefetch = .next x ∨ segmentDecision w.code c.prefetch = .segment x) :
      c.prefetch = .word x := by
    unfold segmentDecision at hn
    split at hn
    · next v hv =>
      split at hn
      · simp only [EndDecision.segment.injEq, reduceCtorEq, false_or] at hn
        rw [hv, hn]
      · simp at hn
    · simp at hn
  unfold decideEnd at hd
  split at hd
  · simp at hd
  · split at hd
    · split at hd
      · exact segment hd
      · simp at hd
    · split at hd
      · simp at hd
      · split at hd
        · exact next hd
        · simp at hd

theorem State.endDecision_prefetch (hd : s.endDecision h = .next x ∨ s.endDecision h = .segment x) :
    (s.ctxAt h).prefetch = .word x := by
  unfold State.endDecision at hd
  split at hd
  · exact decideEnd_prefetch hd
  · simp at hd

/-- The chain of an end event moves up the store, so that fuel beyond its length plays no part (log entry 21). -/
theorem endEvent_fuel {n m : Nat} (inside : s.FetchesInside h) (hn : 1024 - (s.ctxAt h).stepAddr ≤ n)
    (hm : 1024 - (s.ctxAt h).stepAddr ≤ m) (pn : 0 < n) (pm : 0 < m) : endEvent n h s = endEvent m h s := by
  induction n generalizing s m with
  | zero => exact absurd pn (by decide)
  | succ n ih =>
    obtain ⟨m, rfl⟩ := Nat.exists_eq_succ_of_ne_zero (Nat.ne_of_gt pm)
    unfold endEvent
    cases hd : s.endDecision h with
    | ends o => rfl
    | next x =>
      have low := inside x (State.endDecision_prefetch (.inl hd))
      have addr := (s.chainNext_own h x).1
      simp only
      rw [ih (s.fetchesInside_chainNext h x) (m := m) (by rw [addr]; omega) (by rw [addr]; omega) (by omega) (by omega)]
    | segment x =>
      have low := inside x (State.endDecision_prefetch (.inr hd))
      have addr := (s.chainSegment_own h x).1
      simp only
      rw [ih (s.fetchesInside_chainSegment h x) (m := m) (by rw [addr]; omega) (by rw [addr]; omega) (by omega)
        (by omega)]

/-! ### One chain -/

theorem State.takeEndEvent_ends {o : CycleOutcome} (hd : s.endDecision h = .ends o) :
    s.takeEndEvent h = ⟨s, some (s.endingAt h o false)⟩ := by
  rw [State.takeEndEvent, endEvent, hd]

theorem State.takeEndEvent_next (hd : s.endDecision h = .next x) : s.takeEndEvent h =
    if x.zeroDwell then (s.chainNext h x).takeEndEvent h else ⟨s.chainNext h x, none⟩ := by
  rw [State.takeEndEvent, endEvent, hd]
  simp only
  rw [State.takeEndEvent, endEvent_fuel (s.fetchesInside_chainNext h x) (m := 1026) (by omega) (by omega) (by omega)
    (by omega)]

theorem State.takeEndEvent_segment (hd : s.endDecision h = .segment x) : s.takeEndEvent h =
    if x.zeroDwell then (s.chainSegment h x).takeEndEvent h else ⟨s.chainSegment h x, none⟩ := by
  rw [State.takeEndEvent, endEvent, hd]
  simp only
  rw [State.takeEndEvent, endEvent_fuel (s.fetchesInside_chainSegment h x) (m := 1026) (by omega) (by omega) (by omega)
    (by omega)]

/-! ### The chained states (R16, R17) -/

/-- States that agree field by field but for the notices are alike. -/
theorem State.like_of_at (base : s.base = t.base) (cache : s.cache = t.cache) (carriers : s.carriers = t.carriers)
    (ctx : ∀ j, s.ctxAt j = t.ctxAt j) (intake : ∀ j, s.intakeAt j = t.intakeAt j) (row : ∀ j, s.rowAt j = t.rowAt j)
    (queue : s.queue = t.queue) (ring : s.ring = t.ring) : s.Like t := by
  have same : s = { t with notices := s.notices } :=
    State.ext_at base (by rw [cache]) (by rw [cache]) (by rw [cache])
      (fun e => by rw [State.entryAt, cache, ← State.entryAt]; rfl) carriers ctx intake row queue ring rfl
  rw [same]
  rfl

/-- The context of a head once a chain has taken a word as a new step (R4, R6, R10, R16). -/
def State.chainedCtx (s : State) (h : Head) (w : StepWord) (d : ClassDesc) : HeadCtx :=
  { s.ctxAt h with
    stepAddr := (s.ctxAt h).stepAddr + 1, step := some w, prefetch := s.slotAfter d ((s.ctxAt h).stepAddr + 1) w,
    stepClock := 0, stepTimer := w.timer, tStart := (s.ctxAt h).lastTemp,
    feedBaseline := if w.kind? = some .feed then (s.intakeAt h).lastFeed else none, feedOwed := w.kind? = some .feed }

/-- A state whose share rows are renewed throughout. -/
def State.withRows (s : State) (row : Head → Row) : State := { s with share := Vector.ofFn row }

theorem State.withRows_rowAt (s : State) (row : Head → Row) (j : Head) : (s.withRows row).rowAt j = row j := by
  simp [State.withRows, State.rowAt]

/-- The row of a head after a chain of head `h` (R16). -/
def State.chainedRow (s : State) (h : Head) (w : StepWord) (j : Head) : Row :=
  { s.rowAt j with
    tier := if j = h then some w.tier else (s.rowAt j).tier, cap := (s.rowAt j).cap.filter fun c => c.claimant ≠ h }

theorem State.chained_eq (s : State) (h : Head) (w : StepWord) (d : ClassDesc) :
    s.chained h w d = (s.withRows (s.chainedRow h w)).modCtx h fun _ => s.chainedCtx h w d := rfl

theorem State.chained_ctxAt (s : State) (h j : Head) (w : StepWord) (d : ClassDesc) :
    (s.chained h w d).ctxAt j = if j = h then s.chainedCtx h w d else s.ctxAt j := by
  rw [State.chained_eq, State.modCtx_ctxAt]
  rfl

theorem State.chained_rowAt (s : State) (h j : Head) (w : StepWord) (d : ClassDesc) :
    (s.chained h w d).rowAt j = s.chainedRow h w j := by
  rw [State.chained_eq, State.modCtx_rowAt, State.withRows_rowAt]

theorem State.chained_base (s : State) (h : Head) (w : StepWord) (d : ClassDesc) : (s.chained h w d).base = s.base := by
  rw [State.chained_eq, State.modCtx_base]
  rfl

theorem State.chainNext_ctxAt (hd : s.boundDesc h = some d) (w : StepWord) (j : Head) :
    (s.chainNext h w).ctxAt j = if j = h then s.chainedCtx h w d else s.ctxAt j := by
  have desc : (s.releaseClaims h).boundDesc h = some d :=
    (State.boundDesc_congr (by rw [State.releaseClaims_ctxAt]) fun b _ =>
      congrArg Entry.body (State.releaseClaims_entryAt s h b.entry)).trans hd
  rw [State.chainNext, State.startStep, State.writeTier, State.modRow_ctxAt, State.modCtx_ctxAt,
    State.prefetchFor_eq_slotAfter desc, State.releaseClaims_ctxAt, State.releaseClaims_ctxAt]
  rfl

theorem State.chainNext_rowAt (s : State) (h j : Head) (w : StepWord) :
    (s.chainNext h w).rowAt j = s.chainedRow h w j := by
  rw [State.chainNext, State.startStep, State.writeTier, State.modRow_rowAt, State.modCtx_rowAt, State.modCtx_rowAt,
    State.releaseClaims_rowAt, State.releaseClaims_rowAt, Row.released_eq, Row.released_eq, State.chainedRow]
  split
  · next hj => rw [hj]
  · rfl

theorem State.chainNext_ring (s : State) (h : Head) (w : StepWord) : (s.chainNext h w).ring = s.ring :=
  s.releaseClaims_ring h

/-- A NEXT chain is the chained state of the statements, with a report of the claims it has released. -/
theorem State.chainNext_like (hd : s.boundDesc h = some d) (w : StepWord) : (s.chained h w d).Like (s.chainNext h w) := by
  have steps := s.stepsOn_chainNext h w
  have base := steps.base
  have cache := steps.cache
  have carriers := steps.carriers
  have intake := steps.intake
  have queue := steps.queue
  refine State.like_of_at ?_ ?_ ?_ (fun j => ?_) (fun j => ?_) (fun j => ?_) ?_ ?_
  · rw [base, State.chained_base]
  · rw [cache]; rfl
  · rw [carriers]; rfl
  · rw [State.chainNext_ctxAt hd, State.chained_ctxAt]
  · rw [intake]; rfl
  · rw [State.chainNext_rowAt, State.chained_rowAt]
  · rw [queue]; rfl
  · rw [State.chainNext_ring]; rfl

theorem State.chainSegment_eq (hd : s.boundDesc h = some d) (w : StepWord) :
    s.chainSegment h w = s.chainedSegment h w d := by
  unfold State.chainSegment State.startSegment State.chainedSegment
  rw [State.prefetchFor_eq_slotAfter hd]
  rfl

end Sys2Proof.Machine
end

section
/-! The end event of a step as the statements name it (R8, R9, R15 to R18). -/

namespace Sys2Proof.Machine

variable {s t u v : State} {k : Flight} {h g : Head} {d : ClassDesc} {a : Assignment} {w x : StepWord}

theorem State.Like.alike (like : s.Like t) (reserved : t.ring.reserved = s.ring.reserved)
    (replies : (t.ring.general.filter fun f => f.kind = 0x02) = s.ring.general.filter fun f => f.kind = 0x02) :
    s.AlikeButNotices t := by
  refine ⟨?_, replies⟩
  have same := like.eq_with
  rw [reserved] at same
  exact same

theorem State.Like.endDecision (like : s.Like t) (h : Head) : s.endDecision h = t.endDecision h :=
  like.view (v := fun u => u.endDecision h) fun _ => rfl

/-- The end event of a step that chains on, from a state like the one of the statement (R16, R18). -/
theorem State.chainedNext_of (like : s.Like v) (reserved : v.ring.reserved = s.ring.reserved)
    (replies : (v.ring.general.filter fun f => f.kind = 0x02) = s.ring.general.filter fun f => f.kind = 0x02)
    (free : s.resetHeld = false) (heating : (s.ctxAt h).state = .heating) (hd : s.boundDesc h = some d)
    (next : s.endDecision h = .next w) (ht : ((v.takeEndEvent h).conclude h).report = t) : s.ChainedNext t h w d := by
  have taken := State.takeEndEvent_next (s := v) (h := h) (x := w) (by rw [← like.endDecision]; exact next)
  have chain : (s.chained h w d).Like (v.chainNext h w) := (State.chainNext_like hd w).trans (like.chainNext h w)
  have ports : t.port = v.port := by rw [← ht, State.report_port, State.takeEndEvent_conclude_port]
  have kept : t.ring.reserved = s.ring.reserved := (State.reserved_of_port ports).trans reserved
  have answers : (t.ring.general.filter fun f => f.kind = 0x02) = s.ring.general.filter fun f => f.kind = 0x02 := by
    rw [← replies, ← ht]
    exact ((v.adds_takeEndEvent h).trans (State.adds_report _)).replies
  refine ⟨fun dwell => ?_, fun dwell => ?_⟩
  · have ends : (v.takeEndEvent h).conclude h = v.chainNext h w := by
      rw [taken, dwell]
      rfl
    rw [ends] at ht
    refine State.Like.alike ?_ kept answers
    rw [← ht]
    exact chain.trans (State.like_report _).symm
  · have ends : ((v.chainNext h w).takeEndEvent h).conclude h = (v.takeEndEvent h).conclude h := by
      rw [taken, if_pos dwell]
    have timer : ((v.chainNext h w).ctxAt h).stepTimer = none := by
      rw [← chain.ctxAt, State.chained_ctxAt, if_pos rfl]
      exact StepWord.timer_of_zeroDwell dwell
    have own : ((s.chained h w d).runOut h).ctxAt h = { s.chainedCtx h w d with stepTimer := some 0 } := by
      rw [State.runOut_ctxAt, if_pos rfl, State.chained_ctxAt, if_pos rfl]
    have running : ((s.chained h w d).runOut h).runningKind h = w.kind? :=
      State.runningKind_of_step (by rw [own]; rfl)
    have free' : ((s.chained h w d).runOut h).resetHeld = false := by
      refine (State.resetHeld_of_base (s := s) ?_).trans free
      rw [State.runOut_eq, State.modCtx_base, State.chained_base]
    refine ⟨_, exec_dwellExpiry free' (by rw [own]; exact heating) (by rw [own]) ?_, State.Like.alike ?_ ?_ ?_⟩
    · rw [running]
      exact (StepWord.zeroDwell_iff.mp dwell).1
    · refine (State.like_report _).trans ?_
      rw [← ht, ← ends, ← State.takeEndEvent_runOut timer]
      exact ((endEvent_like 1026 h (chain.runOut h)).conclude h).trans (State.like_report _).symm
    · rw [kept, State.reserved_of_port (State.report_port _), State.reserved_of_port (State.takeEndEvent_conclude_port _ h)]
      rfl
    · rw [answers]
      exact (((State.adds_takeEndEvent ((s.chained h w d).runOut h) h).trans (State.adds_report _)).replies).symm

/-- The decision of a head that runs a step on a class. -/
theorem State.endDecision_of (step : (s.ctxAt h).step = some w) (hd : s.boundDesc h = some d) :
    s.endDecision h = decideEnd w d.minWet (s.ctxAt h) := by
  unfold State.endDecision
  rw [step, hd]
  rfl

end Sys2Proof.Machine
end

section
/-! DWELL_EXPIRY: the end event of a SOAK or HOLD (R8, R9, R15 to R18). -/

namespace Sys2Proof.Machine

variable {s t u v : State} {k : Flight} {h g : Head} {d : ClassDesc} {a : Assignment} {w x : StepWord}

/-! ### The decision of R15 by its cases -/

theorem decideEnd_both {m : Nat} {c : HeadCtx} (next : w.next = true) (cont : w.cont = true) :
    decideEnd w m c = .ends .badStep := by
  rw [decideEnd, next, cont]
  rfl

theorem decideEnd_cont {m : Nat} {c : HeadCtx} (next : w.next = false) (cont : w.cont = true)
    (dwell : w.kind? = some .soak ∨ w.kind? = some .hold) : decideEnd w m c = segmentDecision w.code c.prefetch := by
  rw [decideEnd, next, cont, if_neg (by decide), if_pos rfl, if_pos (by simpa using dwell)]

theorem decideEnd_exit {m : Nat} {c : HeadCtx} {o : CycleOutcome} (cont : w.cont = false)
    (exit : exitCheck w m c = some o) : decideEnd w m c = .ends o := by
  unfold decideEnd
  simp only [cont, Bool.and_false, Bool.false_eq_true, if_false, exit]

theorem decideEnd_passed {m : Nat} {c : HeadCtx} (cont : w.cont = false) (exit : exitCheck w m c = none) :
    decideEnd w m c = if w.next then nextDecision c.prefetch else .ends .good := by
  unfold decideEnd
  simp only [cont, Bool.and_false, Bool.false_eq_true, if_false, exit]

/-- The exit check of a SOAK in the words of R8. -/
theorem exitCheck_soak {m : Nat} {c : HeadCtx} (kind : w.kind? = some .soak) : exitCheck w m c =
    match c.lastTemp with
    | none => some .exitLow
    | some tm => if tm + w.window < w.target then some .exitLow
      else if w.target + w.window < tm then some .exitHigh
      else if w.wet = true ∧ c.wet < m then some .shortWetting else none := by
  rw [exitCheck, if_pos kind]
  cases c.lastTemp with
  | none => rfl
  | some tm => simp only [Bool.and_eq_true, decide_eq_true_eq]

/-- The kinds other than SOAK have no exit check (R9 to R11). -/
theorem exitCheck_other {m : Nat} {c : HeadCtx} (kind : w.kind? ≠ some .soak) : exitCheck w m c = none := by
  rw [exitCheck, if_neg kind]

/-! ### What the end event leaves -/

section
variable (hs : s.Sound Flight.none) (free : s.resetHeld = false) (heating : (s.ctxAt h).state = .heating)
  (wait : s.cache.wait = []) (current : (s.ctxAt h).current = some ⟨a, true⟩) (hd : s.boundDesc h = some d)
  (quiet : ∀ c ∈ s.carriers, s.closes c = false)
include hs free heating wait current hd quiet

/-- An end event that ends the cycle (R71). -/
theorem State.Sound.endEvent_ends {o : CycleOutcome} (ends : s.endDecision h = .ends o) :
    s.CycleEnded ((s.takeEndEvent h).conclude h).report h o a d false := by
  rw [State.takeEndEvent_ends ends]
  exact hs.cycleEnded heating wait current hd quiet o false free rfl

end

/-- A segment with no dwell takes its own end event at once (R17, R18). -/
theorem State.dwellExpiry_segment (free : s.resetHeld = false) (heating : (s.ctxAt h).state = .heating)
    (timer : (s.ctxAt h).stepTimer = some 0) (kind : s.runningKind h = some .soak ∨ s.runningKind h = some .hold)
    (hd : s.boundDesc h = some d) (segment : s.endDecision h = .segment x) (dwell : x.zeroDwell = true) :
    exec (.dwellExpiry h) s = exec (.dwellExpiry h) ((s.chainedSegment h x d).runOut h) := by
  have ctx : (s.chainedSegment h x d).ctxAt h =
      { s.ctxAt h with
        stepAddr := (s.ctxAt h).stepAddr + 1, step := some x,
        prefetch := s.slotAfter d ((s.ctxAt h).stepAddr + 1) x, stepTimer := x.timer } := by
    rw [State.chainedSegment, State.modRow_ctxAt, State.modCtx_ctxAt, if_pos rfl]
  have own : ((s.chainedSegment h x d).runOut h).ctxAt h =
      { (s.chainedSegment h x d).ctxAt h with stepTimer := some 0 } := by rw [State.runOut_ctxAt, if_pos rfl]
  have running : ((s.chainedSegment h x d).runOut h).runningKind h = x.kind? :=
    State.runningKind_of_step (by rw [own, ctx])
  have stopped : ((s.chainedSegment h x d).ctxAt h).stepTimer = none := by
    rw [ctx]
    exact StepWord.timer_of_zeroDwell dwell
  rw [exec_dwellExpiry free heating timer kind, exec_dwellExpiry (s := (s.chainedSegment h x d).runOut h)
    free (by rw [own, ctx]; exact heating) (by rw [own]) (by rw [running]; exact (StepWord.zeroDwell_iff.mp dwell).1),
    State.takeEndEvent_runOut stopped, State.takeEndEvent_segment segment, if_pos dwell, State.chainSegment_eq hd]

end Sys2Proof.Machine

open Sys2Proof Sys2Proof.Machine

/-- Settles O56: the decision of R15 by its cases, each with what the end event leaves. -/
theorem dwellExpiryActs : Obligations.DwellExpiryActs := by
  unfold Obligations.DwellExpiryActs
  intro s h taking
  refine ⟨fun idle => event_of_still taking (if_neg ?_), fun a w k d lawful settled wait runs timer dwells => ?_⟩
  · rintro ⟨heating, due, kind⟩
    rcases idle with idle | idle | ⟨soak, hold⟩
    · exact idle heating
    · exact idle due
    · exact kind.elim soak hold
  obtain ⟨heating, current, -, -, -, step⟩ := runs
  obtain ⟨running, kind, desc⟩ := State.runningStep_iff.mp step
  have dwell : w.kind? = some .soak ∨ w.kind? = some .hold := by rcases dwells with rfl | rfl <;> simp [kind]
  have kinds : s.runningKind h = some .soak ∨ s.runningKind h = some .hold := by
    rw [State.runningKind_of_step running]
    exact dwell
  have acts := exec_dwellExpiry taking.1 heating timer kinds
  have decision := State.endDecision_of running desc
  have ends (o : CycleOutcome) (ho : decideEnd w d.minWet (s.ctxAt h) = .ends o) :
      ∃ t, exec (.dwellExpiry h) s = .next t ∧ s.CycleEnded t h o a d false :=
    ⟨_, acts, lawful.sound.endEvent_ends taking.1 heating wait current desc settled.2 (decision.trans ho)⟩
  refine ⟨fun next cont => ends _ (decideEnd_both next cont), fun next cont => ⟨fun range => ends _ ?_, fun v hv =>
    ⟨fun code => ends _ ?_, fun code => ?_⟩⟩, fun cont => ?_⟩
  · rw [decideEnd_cont next cont dwell, range]
    rfl
  · rw [decideEnd_cont next cont dwell, hv, segmentDecision, if_neg code]
  · have segment : s.endDecision h = .segment v := by
      rw [decision, decideEnd_cont next cont dwell, hv, segmentDecision, if_pos code]
    refine ⟨fun zero => ?_, fun zero => State.dwellExpiry_segment taking.1 heating timer kinds desc segment zero⟩
    have taken := State.takeEndEvent_segment segment
    rw [zero] at taken
    rw [acts, taken, ← State.chainSegment_eq desc]
    exact congrArg Host.Outcome.next (State.report_of_silent taking.2.2.1)
  · have cases (exit : Option CycleOutcome) (check : exitCheck w d.minWet (s.ctxAt h) = exit) :
        (∀ o, exit = some o → ∃ t, exec (.dwellExpiry h) s = .next t ∧ s.CycleEnded t h o a d false) ∧
        (exit = none → w.next = false → ∃ t, exec (.dwellExpiry h) s = .next t ∧ s.CycleEnded t h .good a d false) ∧
        (exit = none → w.next = true →
          ((s.ctxAt h).prefetch = .rangeError →
            ∃ t, exec (.dwellExpiry h) s = .next t ∧ s.CycleEnded t h .profileRange a d false) ∧
          (∀ v, (s.ctxAt h).prefetch = .word v →
            (v.kind? = none → ∃ t, exec (.dwellExpiry h) s = .next t ∧ s.CycleEnded t h .badStep a d false) ∧
            (v.kind? ≠ none → ∃ t, exec (.dwellExpiry h) s = .next t ∧ s.ChainedNext t h v d))) := by
      subst check
      refine ⟨fun o exit => ends o (decideEnd_exit cont exit), fun exit next => ends _ ?_, fun exit next => ⟨fun range =>
        ends _ ?_, fun v hv => ⟨fun bad => ends _ ?_, fun valid => ⟨_, acts, ?_⟩⟩⟩⟩
      · rw [decideEnd_passed cont exit, next]
        rfl
      · rw [decideEnd_passed cont exit, next, range]
        rfl
      · rw [decideEnd_passed cont exit, next, hv, if_pos rfl, nextDecision, if_pos bad]
      · refine State.chainedNext_of (.refl s) rfl rfl taking.1 heating desc ?_ rfl
        rw [decision, decideEnd_passed cont exit, next, hv, if_pos rfl, nextDecision, if_neg valid]
    refine cases _ ?_
    rcases dwells with rfl | rfl
    · exact exitCheck_soak kind
    · exact exitCheck_other (by rw [kind]; decide)
end

section
/-! DSTAT: the frames accepted, energy and feed counter, and the end of a FEED (R100 to R102, R10). -/

namespace Sys2Proof.Machine

variable {s t u v : State} {k : Flight} {h g : Head} {d : ClassDesc} {a : Assignment} {w x : StepWord} {src : Byte}

/-! ### The frames accepted (R100) -/

theorem State.acceptedHead_none {p : List Byte} (foreign : p.length ≠ 5 ∨ 16 ≤ u8At p 0 ∨
    ∀ h : Head, h.val = u8At p 0 → (s.ctxAt h).state = .disabled ∨ (s.configAt h).drive ≠ src) :
    s.acceptedHead HeadConfig.drive src p = none := by
  unfold State.acceptedHead
  split
  · next length =>
    split
    · next range =>
      obtain bad | bad | bad := foreign
      · exact absurd length bad
      · omega
      · refine if_neg ?_
        rintro ⟨enabled, node, -⟩
        exact (bad ⟨u8At p 0, range⟩ rfl).elim enabled (· node)
    · rfl
  · rfl

theorem State.acceptedHead_some {p : List Byte} (length : p.length = 5) (number : h.val = u8At p 0)
    (enabled : (s.ctxAt h).state ≠ .disabled) (node : (s.configAt h).drive = src) (sends : sendingNode src = true) :
    s.acceptedHead HeadConfig.drive src p = some h := by
  have range : u8At p 0 < 16 := number ▸ h.isLt
  have same : (⟨u8At p 0, range⟩ : Head) = h := Fin.ext number.symm
  have live : src ≠ 0 := by
    rintro rfl
    exact absurd sends (by decide)
  unfold State.acceptedHead
  rw [if_pos length, dif_pos range]
  simp only [same]
  exact if_pos ⟨enabled, node, by rw [node]; exact live⟩

/-! ### Energy and feed counter (R101, R102) -/

/-- The feed counter recorded (R102). -/
def State.withFeed (s : State) (h : Head) (n : Byte) : State := s.modIntake h fun i => { i with lastFeed := some n }

/-- The energy accumulator and its mark as given (R101). -/
def State.metered (s : State) (h : Head) (e : Nat) (m : Option Nat) : State :=
  s.modCtx h fun c => { c with energy := e, dstatMark := m }

theorem State.accountEnergy_metered (s : State) (h : Head) (n : Nat) : ∃ e m, s.accountEnergy h n = s.metered h e m := by
  unfold State.accountEnergy
  split
  · exact ⟨_, _, State.modCtx_congr rfl⟩
  · exact ⟨(s.ctxAt h).energy, (s.ctxAt h).dstatMark, (State.modCtx_self rfl).symm⟩

/-- The accounting of energy, in the words of R101. -/
theorem State.accountEnergy_withFeed (most : (s.ctxAt h).energy ≤ 4294967295) (n : Nat) (counter : Byte) :
    (s.accountEnergy h n).withFeed h counter =
      if (s.ctxAt h).state = .heating then
        (s.modIntake h fun i => { i with lastFeed := some counter }).modCtx h fun c =>
          { c with
            energy := min (c.energy +
              (((s.ctxAt h).dstatMark.map fun m => n * min (s.now - m) (s.configAt h).staleness).getD 0)) 4294967295,
            dstatMark := some s.now }
      else s.modIntake h fun i => { i with lastFeed := some counter } := by
  unfold State.accountEnergy
  split
  · have order (f : HeadCtx → HeadCtx) : (s.modCtx h f).withFeed h counter =
        (s.modIntake h fun i => { i with lastFeed := some counter }).modCtx h f := rfl
    rw [order]
    refine State.modCtx_congr ?_
    have own : (s.modIntake h fun i => { i with lastFeed := some counter }).ctxAt h = s.ctxAt h := rfl
    have energy : energyAfter (s.ctxAt h) (s.configAt h).staleness s.now n = min ((s.ctxAt h).energy +
        (((s.ctxAt h).dstatMark.map fun m => n * min (s.now - m) (s.configAt h).staleness).getD 0)) 4294967295 := by
      unfold energyAfter
      cases (s.ctxAt h).dstatMark with
      | none => exact (min_eq_left most).symm
      | some m => rfl
    simp only [own, energy]
  · rfl

/-- A state after energy and feed counter have been taken: everything but those stands. -/
structure State.Metered (s u : State) (h : Head) : Prop where
  own : ∃ e m, u.ctxAt h = { s.ctxAt h with energy := e, dstatMark := m }
  others : ∀ j, j ≠ h → u.ctxAt j = s.ctxAt j
  cache : u.cache = s.cache
  carriers : u.carriers = s.carriers
  base : u.base = s.base
  notices : u.notices = s.notices

theorem State.metered_ctxAt (s : State) (h j : Head) (e : Nat) (m : Option Nat) (n : Byte) :
    ((s.metered h e m).withFeed h n).ctxAt j =
      if j = h then { s.ctxAt h with energy := e, dstatMark := m } else s.ctxAt j := by
  have recorded : ((s.metered h e m).withFeed h n).ctxAt j = (s.metered h e m).ctxAt j := rfl
  rw [recorded, State.metered, State.modCtx_ctxAt]

theorem State.metered_withFeed (s : State) (h : Head) (e : Nat) (m : Option Nat) (n : Byte) :
    s.Metered ((s.metered h e m).withFeed h n) h where
  own := ⟨e, m, (s.metered_ctxAt h h e m n).trans (if_pos rfl)⟩
  others j hj := (s.metered_ctxAt h j e m n).trans (if_neg hj)
  cache := rfl
  carriers := rfl
  base := rfl
  notices := rfl

section
variable (m : s.Metered u h)
include m

theorem State.Metered.view {α : Type} {f : HeadCtx → α} (hf : ∀ c e n, f { c with energy := e, dstatMark := n } = f c)
    (j : Head) : f (u.ctxAt j) = f (s.ctxAt j) := by
  by_cases hj : j = h
  · obtain ⟨e, n, own⟩ := m.own
    rw [hj, own, hf]
  · rw [m.others j hj]

theorem State.Metered.boundDesc (j : Head) : u.boundDesc j = s.boundDesc j :=
  State.boundDesc_congr (m.view (f := HeadCtx.binding) (fun _ _ _ => rfl) j) fun b _ => by
    rw [State.entryAt, State.entryAt, m.cache]

theorem State.Metered.runningStep : u.runningStep h = s.runningStep h := by
  unfold State.runningStep State.runningKind
  rw [m.view (f := HeadCtx.step) (fun _ _ _ => rfl), m.boundDesc]

theorem State.Metered.closes (c : CarrierEntry) : u.closes c = s.closes c := by
  unfold State.closes
  rw [State.holdsRecordOf_congr (s := s) fun j => m.view (f := HeadCtx.heldRecord) (fun _ _ _ => rfl) j]

theorem State.Metered.firstReady : u.firstReady = s.firstReady := by
  refine State.firstReady_congr fun j => ?_
  unfold State.readyDesc
  rw [m.view (f := HeadCtx.state) (fun _ _ _ => rfl), m.view (f := HeadCtx.reqs) (fun _ _ _ => rfl), m.boundDesc]

end

end Sys2Proof.Machine
end

section
/-! DSTAT: the fault flag (R80, R71). -/

namespace Sys2Proof.Machine

variable {s t u v : State} {k : Flight} {h g : Head} {d : ClassDesc} {a : Assignment} {w x : StepWord} {src : Byte} {n : Byte}

/-! ### The feed counter and the end of an event -/

theorem State.withFeed_intakeAt (s : State) (h j : Head) (n : Byte) : (s.withFeed h n).intakeAt j =
    if j = h then { s.intakeAt h with lastFeed := some n } else s.intakeAt j := by
  rw [State.withFeed, State.modIntake_intakeAt]

/-- What the end of a cycle leaves, with the feed counter recorded before and after. -/
theorem State.EndedWith.withFeed {r : JointRecord} {cancel : Bool} (he : s.EndedWith t h r d cancel) (n : Byte) :
    (s.withFeed h n).EndedWith (t.withFeed h n) h r d cancel := by
  obtain ⟨rests, promotes, others, intake, intakes, row, rows, stop, stops, accounts, enables, frame⟩ := he
  refine ⟨rests, promotes, others, ?_, fun j hj => ?_, row, rows, stop, stops, accounts, enables, ?_⟩
  · rw [State.withFeed_intakeAt, if_pos rfl, State.withFeed_intakeAt, if_pos rfl, intake]
  · rw [State.withFeed_intakeAt, if_neg hj, State.withFeed_intakeAt, if_neg hj, intakes j hj]
  · have fed (u : State) : u.withFeed h n = { u with intake := (u.withFeed h n).intake } := rfl
    rw [fed t, frame]
    rfl

theorem closeEntries_withFeed (cs : List CarrierEntry) (s : State) :
    closeEntries cs (s.withFeed h n) = (closeEntries cs s).withFeed h n := by
  induction cs generalizing s with
  | nil => rfl
  | cons c cs ih =>
    have closes : (s.withFeed h n).closes c = s.closes c := rfl
    have room : (s.withFeed h n).queueHasRoom = s.queueHasRoom := rfl
    unfold closeEntries
    rw [closes, room, ← ih]
    congr 1
    split
    · split <;> rfl
    · rfl

theorem State.closeCarriers_withFeed (s : State) (h : Head) (n : Byte) :
    (s.withFeed h n).closeCarriers = s.closeCarriers.withFeed h n := closeEntries_withFeed s.carriers s

/-- Where nothing is ready and nothing closes, the end of an event adds nothing. -/
theorem State.conclude_of_settled (first : u.firstReady = none) (quiet : ∀ c ∈ u.carriers, u.closes c = false) :
    u.conclude = u := by
  have closed := State.closeCarriers_of_none quiet
  rw [State.conclude, closed, State.startReady_of_none first, closed]

theorem State.takeFeedCounter_still (idle : ¬((s.ctxAt h).state = .heating ∧ s.runningKind h = some .feed)) (n : Byte) :
    s.takeFeedCounter h n = s.withFeed h n := if_neg idle

/-! ### The fault flag in HEATING (R71, R80) -/

section
variable (hv : v.Sound Flight.none) (heating : (v.ctxAt h).state = .heating) (wait : v.cache.wait = [])
  (current : (v.ctxAt h).current = some ⟨a, true⟩) (hd : v.boundDesc h = some d)
  (quiet : ∀ c ∈ v.carriers, v.closes c = false)
include hv heating wait

/-- A cycle that a fault ends leaves its head FAULTED (R73). -/
theorem State.Sound.terminate_faulted {e : Ending} {x : FaultCause} (fault : causeOf e.outcome = some x) :
    ((v.terminate h e).ctxAt h).state = .faulted := by
  obtain ⟨-, -, reqs, cause, -⟩ := (hv.heads h).heating heating
  have state : endedState e.outcome v.queueHasRoom = .faulted := by
    have cls : e.outcome.cls = .fault := by
      by_contra other
      rw [(causeOf_eq_none_iff _).mpr other] at fault
      cases fault
    rw [endedState, if_pos cls]
  rw [(State.terminate_rests e wait reqs cause (.inr (by rw [state]; decide))).ctxAt, State.rested_ctxAt, if_pos rfl]
  exact state

include current hd quiet

/-- The fault flag of a running cycle ends it, and the feed counter is recorded (R71, R80, R102). -/
theorem State.Sound.driveFaulted (free : v.resetHeld = false)
    (ht : (((v.driveFault h).takeFeedCounter h n).conclude).report = t) :
    (v.withFeed h n).CycleEnded t h .driveFault a d (decide (v.runningKind h = some .feed)) := by
  have ends : v.driveFault h = v.terminate h (v.endingAt h .driveFault (decide (v.runningKind h = some .feed))) := by
    unfold State.driveFault
    rw [heating]
    rfl
  have faulted := hv.terminate_faulted heating wait
    (e := v.endingAt h .driveFault (decide (v.runningKind h = some .feed))) (x := .driveFault) rfl
  have after := hv.terminate heating Flight.none_ne_homeless
    (v.endingAt h .driveFault (decide (v.runningKind h = some .feed)))
  rw [Flight.put_plain (by rfl), Flight.paid_of (by rfl)] at after
  rw [ends, State.takeFeedCounter_still (by rw [faulted]; rintro ⟨e, -⟩; cases e)] at ht
  have recorded := after.modIntake (h := h) (f := fun i => { i with lastFeed := some n }) (after.heads h).unwatched
  refine ⟨_, (hv.endedAt heating wait current hd quiet .driveFault _ (t := t) ?_ fun f hf => ?_).withFeed n, ?_⟩
  · have port : t.port = v.port := by
      rw [← ht, State.report_port, State.conclude_port]
      exact State.terminate_port v h _
    exact congrArg (fun p => p.2.1) port
  · rw [← ht]
    refine (State.adds_report _).mem ((State.adds_closeCarriers _).mem ((State.adds_startReady _).mem ?_))
    rw [State.closeCarriers_ring]
    exact hf
  · have same : ((v.terminate h (v.endingAt h .driveFault (decide (v.runningKind h = some .feed)))).closeCarriers.announcedAs
        t).withFeed h n =
        ((v.terminate h (v.endingAt h .driveFault (decide (v.runningKind h = some .feed)))).withFeed h
          n).closeCarriers.announcedAs t := by
      rw [State.closeCarriers_withFeed]
      rfl
    rw [same]
    refine recorded.closeCarriers.announced_startsFrom ?_ recorded.closeCarriers_settled ht
    refine (State.resetHeld_of_base (s := v) ?_).trans free
    rw [State.closeCarriers_base]
    exact State.terminate_base ..

end

end Sys2Proof.Machine
end

section
/-! DSTAT: the fault flag of a head that runs no cycle (R77, R80). -/

namespace Sys2Proof.Machine

variable {s t u v : State} {k : Flight} {h g : Head} {d : ClassDesc} {a : Assignment} {w x : StepWord} {src : Byte} {n : Byte}

/-! ### The discard of the assignment of a head in ARMING (R77) -/

/-- The head in ARMING faulted: its promoted assignment gone and the next one in its place (R77, R80). -/
def State.faultedCtx (s : State) (h : Head) : HeadCtx :=
  { s.ctxAt h with
    state := .faulted, current := (s.ctxAt h).next.map fun b => { asg := b, promoted := false }, next := none,
    binding := none, reqs := none, cause := some .driveFault }

/-- What a discard with its fault leaves, field by field, before the closing test. -/
structure State.Drops (s u : State) (h : Head) (a : Assignment) : Prop where
  own : u.ctxAt h = s.faultedCtx h
  others : ∀ j, j ≠ h → u.ctxAt j = s.ctxAt j
  entries : ∀ e, u.entryAt e = (s.freed h).entryAt e
  wait : u.cache.wait = []
  limit : u.cache.fetchLimit = s.cache.fetchLimit
  owed : u.cache.retryOwed = false
  carriers : u.carriers = s.carriers.map fun c => if c.id = a.carrier then c.discarded else c
  queue : u.queue = s.queue
  ring : u.ring = s.ring
  base : u.base = s.base
  rows : ∀ j, u.rowAt j = s.rowAt j
  intakes : ∀ j, u.intakeAt j = s.intakeAt j

/-- The discard of R77 without its list. -/
def State.dropping (s : State) (h : Head) (a : Assignment) : State :=
  (((s.unbind h).leaveWait h).modCtx h fun c => { c.advance with reqs := none }).reportDiscard a.carrier

theorem State.discardCurrent_dropping (current : (s.ctxAt h).current = some ⟨a, true⟩) :
    s.discardCurrent h = s.dropping h a := by
  unfold State.discardCurrent
  rw [current]
  rfl

/-- The head dropped and faulted, with no retry left to make. -/
def State.dropped (s : State) (h : Head) (a : Assignment) : State :=
  (((s.dropping h a).modCtx h fun c => { c with state := .faulted, cause := some .driveFault }).reportFault).modCache
    fun k => { k with retryOwed := false }

theorem State.dropped_ctxAt (s : State) (h j : Head) (a : Assignment) :
    (s.dropped h a).ctxAt j = if j = h then s.faultedCtx h else s.ctxAt j := by
  have outer : (s.dropped h a).ctxAt j =
      ((s.dropping h a).modCtx h fun c => { c with state := .faulted, cause := some .driveFault }).ctxAt j := rfl
  have inner (i : Head) : (s.dropping h a).ctxAt i = (((s.unbind h).leaveWait h).modCtx h fun c =>
      { c.advance with reqs := none }).ctxAt i := rfl
  have left (i : Head) : ((s.unbind h).leaveWait h).ctxAt i = (s.unbind h).ctxAt i := rfl
  rw [outer, State.modCtx_ctxAt, inner, inner, State.modCtx_ctxAt, State.modCtx_ctxAt, left, left, State.unbind_ctxAt,
    State.unbind_ctxAt, if_pos rfl, if_pos rfl]
  by_cases hj : j = h
  · rw [if_pos hj, if_pos hj]
    rfl
  · simp only [if_neg hj]

/-- What follows the unbinding, from the state it leaves. -/
def State.dropRest (v : State) (h : Head) (a : Assignment) : State :=
  (((((v.leaveWait h).modCtx h fun c => { c.advance with reqs := none }).reportDiscard a.carrier).modCtx h fun c =>
    { c with state := .faulted, cause := some .driveFault }).reportFault).modCache fun k => { k with retryOwed := false }

theorem State.dropped_eq (s : State) (h : Head) (a : Assignment) : s.dropped h a = (s.unbind h).dropRest h a := rfl

theorem State.dropRest_entryAt (v : State) (h : Head) (a : Assignment) (e : EntryIx) :
    (v.dropRest h a).entryAt e = v.entryAt e := rfl
theorem State.dropRest_wait (v : State) (h : Head) (a : Assignment) :
    (v.dropRest h a).cache.wait = v.cache.wait.filter fun w => w.head ≠ h := rfl
theorem State.dropRest_fetchLimit (v : State) (h : Head) (a : Assignment) :
    (v.dropRest h a).cache.fetchLimit = v.cache.fetchLimit := rfl
theorem State.dropRest_carriers (v : State) (h : Head) (a : Assignment) : (v.dropRest h a).carriers =
    v.carriers.map fun c => if c.id = a.carrier then c.discarded else c := rfl
theorem State.dropRest_rowAt (v : State) (h : Head) (a : Assignment) (j : Head) :
    (v.dropRest h a).rowAt j = v.rowAt j := rfl
theorem State.dropRest_intakeAt (v : State) (h : Head) (a : Assignment) (j : Head) :
    (v.dropRest h a).intakeAt j = v.intakeAt j := rfl
theorem State.dropRest_queue (v : State) (h : Head) (a : Assignment) : (v.dropRest h a).queue = v.queue := rfl
theorem State.dropRest_ring (v : State) (h : Head) (a : Assignment) : (v.dropRest h a).ring = v.ring := rfl
theorem State.dropRest_base (v : State) (h : Head) (a : Assignment) : (v.dropRest h a).base = v.base := by
  simp [State.dropRest, State.reportDiscard]

theorem State.dropped_drops (s : State) (h : Head) (a : Assignment) (wait : s.cache.wait = []) : s.Drops (s.dropped h a) h a where
  own := by rw [State.dropped_ctxAt, if_pos rfl]
  others j hj := by rw [State.dropped_ctxAt, if_neg hj]
  entries e := by rw [State.dropped_eq, State.dropRest_entryAt, State.unbind_entryAt]
  wait := by rw [State.dropped_eq, State.dropRest_wait, State.unbind_wait, wait]; rfl
  limit := by rw [State.dropped_eq, State.dropRest_fetchLimit, State.unbind_fetchLimit]
  owed := rfl
  carriers := by rw [State.dropped_eq, State.dropRest_carriers, State.unbind_carriers]
  queue := by rw [State.dropped_eq, State.dropRest_queue, State.unbind_queue]
  ring := by rw [State.dropped_eq, State.dropRest_ring, State.unbind_ring]
  base := by rw [State.dropped_eq, State.dropRest_base, State.unbind_base]
  rows j := by rw [State.dropped_eq, State.dropRest_rowAt, State.unbind_rowAt]
  intakes j := by rw [State.dropped_eq, State.dropRest_intakeAt, State.unbind_intakeAt]

theorem State.driveFault_dropped (arming : (s.ctxAt h).state = .arming) (current : (s.ctxAt h).current = some ⟨a, true⟩)
    (wait : s.cache.wait = []) : s.driveFault h = s.dropped h a := by
  have acts : s.driveFault h =
      (((s.dropping h a).modCtx h fun c => { c with state := .faulted, cause := some .driveFault }).reportFault).runRetry := by
    unfold State.driveFault
    rw [arming, ← State.discardCurrent_dropping current]
  rw [acts]
  exact State.runRetry_of_no_wait (s.dropped_drops h a wait).wait

/-! ### What the closing test leaves -/

section
variable (m : s.Drops u h a)
include m

theorem State.Drops.boundDesc {j : Head} (hj : j ≠ h) : u.boundDesc j = s.boundDesc j :=
  State.boundDesc_congr (by rw [m.others j hj]) fun b _ => by rw [m.entries, State.freed_entryAt]

theorem State.Drops.firstReady (first : s.firstReady = none) : u.firstReady = none := by
  refine State.firstReady_none_iff.mpr fun j => ?_
  by_cases hj : j = h
  · subst hj
    unfold State.readyDesc
    rw [m.own, if_neg]
    rintro ⟨e, -⟩
    cases e
  · unfold State.readyDesc
    rw [m.others j hj, m.boundDesc hj]
    exact State.firstReady_none_iff.mp first j

/-- Where carriers keep something live, nothing closes. -/
theorem State.Drops.quiet (quiet : ∀ c ∈ s.carriers, s.closes c = false)
    (alive : ∀ c ∈ s.carriers, c.id ∈ [a].map Assignment.carrier → 1 < c.live) : ∀ c ∈ u.carriers, u.closes c = false := by
  have held (j : Head) : (u.ctxAt j).heldRecord = (s.ctxAt j).heldRecord := by
    by_cases hj : j = h
    · rw [hj, m.own]; rfl
    · rw [m.others j hj]
  have closes (c : CarrierEntry) : u.closes c = s.closes c := by
    unfold State.closes
    rw [State.holdsRecordOf_congr held]
  intro c hc
  rw [m.carriers] at hc
  obtain ⟨x, hx, rfl⟩ := List.mem_map.mp hc
  rw [closes]
  split
  · next named =>
    have live := alive x hx (by simpa using named)
    have : x.discarded.live ≠ 0 := by
      show x.live - 1 ≠ 0
      omega
    simp [State.closes, this]
  · exact quiet x hx

end

/-- The fault flag of a head in ARMING discards its promoted assignment (R77, R80). -/
theorem State.Drops.discarded (m : s.Drops u h a) (hu : (u.withFeed h n).Sound Flight.none)
    (first : s.firstReady = none) (quiet : ∀ c ∈ s.carriers, s.closes c = false) (wait : s.cache.wait = [])
    (settled : s.cache.retryOwed = false) (enables : u.notices.enables = s.notices.enables)
    (ht : ((u.withFeed h n).conclude).report = t) :
    (s.withFeed h n).Discarded t h [a] (s.ctxAt h).next .faulted (some .driveFault) := by
  have first' : (u.withFeed h n).firstReady = none := m.firstReady first
  have ends : (u.withFeed h n).conclude = u.closeCarriers.withFeed h n := by
    rw [State.conclude, State.startReady_of_none ((State.closeCarriers_firstReady _).trans first'), hu.closeCarriers_idem,
      State.closeCarriers_withFeed]
  rw [ends] at ht
  have like : (u.closeCarriers.withFeed h n).Like t := ht ▸ (State.like_report _).symm
  have shape : t = { u.closeCarriers.withFeed h n with
      notices := t.notices, ring := { (u.closeCarriers.withFeed h n).ring with general := t.ring.general } } := by
    have := State.report_eq (u.closeCarriers.withFeed h n)
    rw [ht] at this
    exact this
  have ctx (j : Head) : t.ctxAt j = u.ctxAt j := by
    rw [← like.ctxAt]
    exact State.closeCarriers_ctxAt u j
  have cache : t.cache = u.cache := by
    rw [← like.cache]
    exact State.closeCarriers_cache u
  refine ⟨?_, fun j hj => ?_, fun e => ?_, fun alive => ?_, ?_, ?_⟩
  · rw [ctx, m.own]
    rfl
  · rw [ctx, m.others j hj]
    rfl
  · rw [State.entryAt, cache, ← State.entryAt, m.entries]
    rfl
  · have closed : u.closeCarriers = u := State.closeCarriers_of_none (m.quiet quiet alive)
    rw [closed] at like
    refine ⟨?_, ?_⟩
    · rw [← like.carriers]
      refine m.carriers.trans ?_
      simp only [List.map_cons, List.map_nil, List.mem_singleton]
      rfl
    · rw [← like.queue]
      exact m.queue
  · have port : t.port = u.port := by
      rw [← ht, State.report_port]
      exact State.closeCarriers_port u
    exact (congrArg (fun p => p.2.1) port).trans enables
  · refine State.ext_at ?_ ?_ ?_ ?_ (fun e => ?_) ?_ (fun j => ?_) (fun j => ?_) (fun j => ?_) ?_ ?_ ?_
    · rw [shape]
      exact (State.closeCarriers_base u).trans m.base
    · rw [cache, m.wait, ← wait]
      rfl
    · rw [cache, m.limit]
      rfl
    · rw [cache, m.owed, ← settled]
      rfl
    · rfl
    · rfl
    · rfl
    · rw [← like.intakeAt]
      show ((u.closeCarriers).withFeed h n).intakeAt j = (s.withFeed h n).intakeAt j
      rw [State.withFeed_intakeAt, State.withFeed_intakeAt, State.closeCarriers_intakeAt, State.closeCarriers_intakeAt,
        m.intakes, m.intakes]
    · rw [← like.rowAt]
      exact (State.closeCarriers_rowAt u j).trans (m.rows j)
    · rfl
    · have ring := congrArg State.ring shape
      refine ring.trans ?_
      have kept : (u.closeCarriers.withFeed h n).ring = s.ring := (State.closeCarriers_ring u).trans m.ring
      show ({ (u.closeCarriers.withFeed h n).ring with general := t.ring.general } : RingPort) =
        { s.ring with general := t.ring.general }
      rw [kept]
    · rfl

end Sys2Proof.Machine
end

section
/-! DSTAT as a whole (R100 to R103, R80). -/

namespace Sys2Proof.Machine

variable {s t u v : State} {k : Flight} {h g : Head} {d : ClassDesc} {a : Assignment} {w x : StepWord} {src : Byte} {n : Byte}

/-! ### The fault flag of a head at rest (R80) -/

/-- A head at rest faulted, with the feed counter recorded. -/
def State.faultedAtRest (s : State) (h : Head) (n : Byte) : State :=
  ((s.modCtx h fun c => { c with state := .faulted, cause := some .driveFault }).reportFault).withFeed h n

theorem State.faultedAtRest_ctxAt (s : State) (h j : Head) (n : Byte) : (s.faultedAtRest h n).ctxAt j =
    if j = h then { s.ctxAt h with state := .faulted, cause := some .driveFault } else s.ctxAt j := by
  have outer : (s.faultedAtRest h n).ctxAt j =
      (s.modCtx h fun c => { c with state := .faulted, cause := some .driveFault }).ctxAt j := rfl
  rw [outer, State.modCtx_ctxAt]

theorem State.faultedAtRest_settled (first : s.firstReady = none) (quiet : ∀ c ∈ s.carriers, s.closes c = false) :
    (s.faultedAtRest h n).firstReady = none ∧ ∀ c ∈ (s.faultedAtRest h n).carriers, (s.faultedAtRest h n).closes c = false := by
  refine ⟨State.firstReady_none_iff.mpr fun j => ?_, fun c hc => ?_⟩
  · unfold State.readyDesc
    rw [State.faultedAtRest_ctxAt]
    split
    · rw [if_neg]
      rintro ⟨e, -⟩
      cases e
    · next hj =>
      have desc : (s.faultedAtRest h n).boundDesc j = s.boundDesc j :=
        State.boundDesc_congr (by rw [State.faultedAtRest_ctxAt, if_neg hj]) fun _ _ => rfl
      rw [desc]
      exact State.firstReady_none_iff.mp first j
  · have held (j : Head) : ((s.faultedAtRest h n).ctxAt j).heldRecord = (s.ctxAt j).heldRecord := by
      rw [State.faultedAtRest_ctxAt]
      split
      · next hj => rw [hj]
      · rfl
    have same : (s.faultedAtRest h n).closes c = s.closes c := by
      unfold State.closes
      rw [State.holdsRecordOf_congr held]
    rw [same]
    exact quiet c hc

theorem State.faultedAtRest_detected (s : State) (h : Head) (n : Byte) :
    (s.faultedAtRest h n).report.notices.detected.fault = true := by
  rw [State.report_detected]
  have reported : (s.faultedAtRest h n).notices.reported.fault = true := rfl
  simp only [reported, if_true]
  unfold State.faultPresent
  refine List.any_eq_true.mpr ⟨h, mem_allHeads h, ?_⟩
  rw [State.faultedAtRest_ctxAt, if_pos rfl]
  rfl

theorem State.driveFault_atRest (rest : (s.ctxAt h).state = .idle ∨ (s.ctxAt h).state = .held) :
    (s.driveFault h).takeFeedCounter h n = s.faultedAtRest h n := by
  have acts : s.driveFault h =
      (s.modCtx h fun c => { c with state := .faulted, cause := some .driveFault }).reportFault := by
    unfold State.driveFault
    rcases rest with e | e <;> rw [e]
  have state : ((s.driveFault h).ctxAt h).state = .faulted := by
    rw [acts]
    show ((s.modCtx h fun c => { c with state := .faulted, cause := some .driveFault }).ctxAt h).state = _
    rw [State.modCtx_ctxAt, if_pos rfl]
  rw [State.takeFeedCounter_still (by rw [state]; rintro ⟨e, -⟩; cases e), acts]
  rfl

/-! ### The end of a FEED (R10, R15) -/

/-- A FEED with no CONTINUE ends good, or chains to a valid word. -/
theorem decideEnd_feed {m : Nat} {c : HeadCtx} (kind : w.kind? = some .feed) (cont : w.cont = false) :
    decideEnd w m c = if w.next then nextDecision c.prefetch else .ends .good :=
  decideEnd_passed cont (exitCheck_other (by rw [kind]; decide))

/-! ### The frame taken (R100) -/

section
variable {hd p1 p0 flags : Byte} (accepted : s.acceptedHead HeadConfig.drive src [hd, p1, p0, flags, n] = some h)
include accepted

/-- A frame without the fault flag: energy, then the feed counter. -/
theorem State.takeDstat_clear (clear : flags.getLsbD 0 = false) : s.takeDstat src [hd, p1, p0, flags, n] =
    (s.accountEnergy h (min (256 * p1.toNat + p0.toNat) 2500)).takeFeedCounter h n := by
  have power : u16At [hd, p1, p0, flags, n] 1 = 256 * p1.toNat + p0.toNat := by rw [Nat.mul_comm]; rfl
  have flag : flagAt [hd, p1, p0, flags, n] 3 0 = false := clear
  unfold State.takeDstat
  rw [accepted]
  simp only [State.acceptDstat, power, flag, Bool.false_eq_true, if_false]
  rfl

/-- A frame with the fault flag: energy, the fault, the feed counter, and the end of the event. -/
theorem State.takeDstat_fault (fault : flags.getLsbD 0 = true) : s.takeDstat src [hd, p1, p0, flags, n] =
    (((s.accountEnergy h (min (256 * p1.toNat + p0.toNat) 2500)).driveFault h).takeFeedCounter h n).conclude := by
  have power : u16At [hd, p1, p0, flags, n] 1 = 256 * p1.toNat + p0.toNat := by rw [Nat.mul_comm]; rfl
  have flag : flagAt [hd, p1, p0, flags, n] 3 0 = true := fault
  unfold State.takeDstat
  rw [accepted]
  simp only [State.acceptDstat, power, flag, if_true]
  rfl

end

theorem State.accountEnergy_cold (cold : (s.ctxAt h).state ≠ .heating) (m : Nat) : s.accountEnergy h m = s := if_neg cold

/-- A feed counter that meets a running FEED (R10, R102). -/
theorem State.takeFeedCounter_feed (heating : (s.ctxAt h).state = .heating) (kind : s.runningKind h = some .feed) :
    s.takeFeedCounter h n = match (s.ctxAt h).feedBaseline with
      | none => (s.withFeed h n).modCtx h fun c => { c with feedBaseline := some n }
      | some b => if n = b then s.withFeed h n else ((s.withFeed h n).takeEndEvent h).conclude h :=
  if_pos ⟨heating, kind⟩

end Sys2Proof.Machine

open Sys2Proof Sys2Proof.Machine

/-- Settles O54: the frames accepted, then the feed counter by its baseline, then the fault flag by the state of the head. -/
theorem dstatTaken : Obligations.DstatTaken := by
  unfold Obligations.DstatTaken
  intro s src p taking sends bounded
  have runs (t : State) (ht : (s.takeDstat src p).report = t) : exec (.dstat src p) s = .next t := by
    show execDstat src p s = _
    rw [execDstat, unanswered, takes_free taking.1, consumed_sending sends, ht]
  refine ⟨fun foreign => ⟨_, runs _ rfl, ?_⟩, ?_⟩
  · rw [State.takeDstat, State.acceptedHead_none foreign]
    exact State.onlyCounts_foreign taking bounded
  intro h hd p1 p0 flags counter frame number enabled node
  subst frame
  have accepted := State.acceptedHead_some (p := [hd, p1, p0, flags, counter]) rfl number enabled node sends
  dsimp only
  intro most
  rw [← State.accountEnergy_withFeed most]
  obtain ⟨e, m, metered⟩ := s.accountEnergy_metered h (min (256 * p1.toNat + p0.toNat) 2500)
  have meter := s.metered_withFeed h e m counter
  rw [← metered] at meter
  have clear := State.takeDstat_clear (p1 := p1) (p0 := p0) accepted
  have fault := State.takeDstat_fault (p1 := p1) (p0 := p0) accepted
  generalize hv : s.accountEnergy h (min (256 * p1.toNat + p0.toNat) 2500) = v at *
  have silent : (v.withFeed h counter).notices.reported = {} := by rw [meter.notices]; exact taking.2.2.1
  have free : (v.withFeed h counter).resetHeld = false := (State.resetHeld_of_base meter.base).trans taking.1
  have state : (v.ctxAt h).state = (s.ctxAt h).state := meter.view (f := HeadCtx.state) (fun _ _ _ => rfl) h
  have kind : v.runningKind h = s.runningKind h := by
    unfold State.runningKind
    rw [show (v.ctxAt h).step = (s.ctxAt h).step from meter.view (f := HeadCtx.step) (fun _ _ _ => rfl) h]
  have baseline : (v.ctxAt h).feedBaseline = (s.ctxAt h).feedBaseline :=
    meter.view (f := HeadCtx.feedBaseline) (fun _ _ _ => rfl) h
  refine ⟨fun noFlag => ⟨fun other => ?_, fun feeds absent => ?_, fun feeds same => ?_,
    fun a w d old based differs lawful settled wait running cont => ?_⟩, fun flag lawful settled wait => ⟨fun faulted => ?_,
    fun rest => ?_, fun a arming current => ?_, fun a w x d running => ?_⟩⟩
  · rw [runs _ rfl, clear noFlag, State.takeFeedCounter_still (by rw [state, kind]; exact other),
      State.report_of_silent silent]
  · rw [runs _ rfl, clear noFlag, State.takeFeedCounter_feed (state.trans feeds.1) (kind.trans feeds.2), baseline, absent]
    exact congrArg Host.Outcome.next (State.report_of_silent silent)
  · rw [runs _ rfl, clear noFlag, State.takeFeedCounter_feed (state.trans feeds.1) (kind.trans feeds.2), baseline, same]
    simp only [if_true, State.report_of_silent silent]
  · obtain ⟨heating, current, -, -, -, step⟩ := running
    rw [← meter.runningStep] at step
    obtain ⟨steps, feed, desc⟩ := State.runningStep_iff.mp step
    have sound : (v.withFeed h counter).Sound Flight.none := by
      rw [← hv]
      exact (lawful.sound.accountEnergy rfl _).modIntake ((lawful.sound.accountEnergy rfl _).heads h).unwatched
    have heats := state.trans heating
    have decision := (State.endDecision_of steps desc).trans (decideEnd_feed feed cont)
    have acts : exec (.dstat src [hd, p1, p0, flags, counter]) s =
        .next (((v.withFeed h counter).takeEndEvent h).conclude h).report := by
      have feeds : v.runningKind h = some .feed := (State.runningKind_of_step steps).trans feed
      rw [runs _ rfl, clear noFlag, State.takeFeedCounter_feed heats feeds, baseline, based]
      simp only [if_neg (Ne.symm differs)]
    refine ⟨fun last => ⟨_, acts, ?_⟩, fun next y hy valid => ⟨_, acts, ?_⟩⟩
    · refine sound.endEvent_ends free heats ?_ ?_ desc ?_ ?_
      · rw [meter.cache, wait]
      · rw [meter.view (f := HeadCtx.current) fun _ _ _ => rfl]
        exact current
      · rw [meter.carriers]
        exact fun c hc => (meter.closes c).trans (settled.2 c hc)
      · rw [decision, last]
        rfl
    · refine State.chainedNext_of (.refl _) rfl rfl free heats desc ?_ rfl
      rw [decision, next, meter.view (f := HeadCtx.prefetch) fun _ _ _ => rfl, hy, if_pos rfl, nextDecision, if_neg valid]
  · have still : v.driveFault h = v := by
      unfold State.driveFault
      rw [state, faulted]
    rw [runs _ rfl, fault flag, still, State.takeFeedCounter_still (by rw [state, faulted]; rintro ⟨e, -⟩; cases e),
      State.conclude_of_settled (meter.firstReady.trans settled.1), State.report_of_silent silent]
    rw [meter.carriers]
    exact fun c hc => (meter.closes c).trans (settled.2 c hc)
  · have cold : (s.ctxAt h).state ≠ .heating := by rcases rest with e | e <;> rw [e] <;> decide
    rw [State.accountEnergy_cold cold] at hv
    subst hv
    obtain ⟨first, quiet⟩ := State.faultedAtRest_settled (h := h) (n := counter) settled.1 settled.2
    refine ⟨_, runs _ rfl, ?_⟩
    rw [fault flag, State.driveFault_atRest rest, State.conclude_of_settled first quiet]
    exact ⟨s.faultedAtRest_detected h counter, (s.faultedAtRest h counter).report_eq⟩
  · have cold : (s.ctxAt h).state ≠ .heating := by rw [arming]; decide
    rw [State.accountEnergy_cold cold] at hv
    subst hv
    have drops := s.dropped_drops h a wait
    have sound := lawful.sound.driveFault rfl h rfl Flight.none_ne_homeless
    have enables : (s.driveFault h).notices.enables = s.notices.enables := congrArg (fun p => p.2.1) (s.driveFault_port h)
    rw [State.driveFault_dropped arming current wait] at fault sound enables
    have state : ((s.dropped h a).ctxAt h).state = .faulted := by rw [drops.own]; rfl
    rw [State.takeFeedCounter_still (by rw [state]; rintro ⟨e, -⟩; cases e)] at fault
    refine ⟨_, runs _ rfl, ?_⟩
    rw [fault flag]
    exact drops.discarded (sound.modIntake (sound.heads h).unwatched) settled.1 settled.2 wait taking.2.2.2 enables rfl
  · obtain ⟨heating, current, -, -, -, step⟩ := running
    rw [← meter.runningStep] at step
    obtain ⟨steps, feed, desc⟩ := State.runningStep_iff.mp step
    have sound : v.Sound Flight.none := by
      rw [← hv]
      exact lawful.sound.accountEnergy rfl _
    refine ⟨_, runs _ rfl, ?_⟩
    rw [fault flag]
    have ended := sound.driveFaulted (n := counter) (state.trans heating) (meter.cache ▸ wait)
      ((meter.view (f := HeadCtx.current) (fun _ _ _ => rfl) h).trans current) desc
      (fun c hc => (meter.closes c).trans (settled.2 c (meter.carriers ▸ hc))) free rfl
    have kinds : v.runningKind h = some x := (State.runningKind_of_step steps).trans feed
    rw [kinds] at ended
    simpa using ended
end

section
/-! One service of a HEATING head, in the words of the statements (R97, R106 to R117). -/

namespace Sys2Proof.Machine

variable {s t u v : State} {k : Kind} {h g : Head} {d : ClassDesc} {a : Assignment} {w x : StepWord} {tm : Nat}

/-! ### The next head to serve (R97) -/

theorem State.nextServed_eq {p : PendingSample} (next : s.NextToServe h p) : s.nextServed = some (h, p) := by
  obtain ⟨slot, first⟩ := next
  have turn (i : Head) : s.pointer + 1 + i - s.pointer - 1 = i := by rw [sub_sub, add_sub_cancel_left]
  have back : s.pointer + 1 + (h - s.pointer - 1) = h := by rw [sub_sub, add_sub_cancel]
  have own : ((s.intakeAt (s.pointer + 1 + (h - s.pointer - 1))).slot.map fun q =>
      (s.pointer + 1 + (h - s.pointer - 1), q)) = some (h, p) := by rw [back, slot]; rfl
  unfold State.nextServed turnOrder
  rw [List.findSome?_map]
  cases found : allHeads.findSome? ((fun j => (s.intakeAt j).slot.map fun q => (j, q)) ∘ fun i => s.pointer + 1 + i) with
  | none =>
    have := List.findSome?_eq_none_iff.mp found (h - s.pointer - 1) (mem_allHeads _)
    rw [Function.comp_apply, own] at this
    cases this
  | some r =>
    obtain ⟨before, i, after, heads, hit, missed⟩ := List.findSome?_eq_some_iff.mp found
    have member : h - s.pointer - 1 ∈ before ++ i :: after := heads ▸ mem_allHeads _
    have sorted : (before ++ i :: after).Pairwise (· < ·) := heads ▸ (by decide)
    have here : i = h - s.pointer - 1 := by
      rcases List.mem_append.mp member with early | late
      · have := missed _ early
        rw [Function.comp_apply, own] at this
        cases this
      · rcases List.mem_cons.mp late with same | later
        · exact same.symm
        · have less := (List.pairwise_cons.mp (List.pairwise_append.mp sorted).2.1).1 _ later
          have occupied : (s.intakeAt (s.pointer + 1 + i)).slot.isSome = true := by
            cases slots : (s.intakeAt (s.pointer + 1 + i)).slot with
            | none => rw [Function.comp_apply, slots] at hit; cases hit
            | some q => rfl
          have := first _ occupied
          rw [turn] at this
          exact absurd (Fin.lt_def.mp less) (Nat.not_lt.mpr this)
    rw [← hit, Function.comp_apply, here]
    exact own

/-! ### The grant where the headroom covers the demand (R123 to R126) -/

theorem grantOf_covered {demand room : Nat} {cap : Option Cap} (covers : wantOf demand cap ≤ room) :
    grantOf demand room cap = wantOf demand cap := by
  unfold grantOf
  unfold wantOf at covers ⊢
  cases cap with
  | none => exact min_eq_left covers
  | some c =>
    simp only [Option.map_some, Option.getD_some] at covers ⊢
    omega

theorem sourceOf_covered {demand room : Nat} {cap : Option Cap} (covers : wantOf demand cap ≤ room) :
    sourceOf demand room (wantOf demand cap) cap = if wantOf demand cap = demand then .control else .capped := by
  unfold sourceOf
  split
  · rfl
  · next less =>
    cases cap with
    | none => exact absurd rfl less
    | some c =>
      simp only [wantOf, Option.map_some, Option.getD_some] at covers less
      rw [if_pos]
      simp only [Option.any_some, decide_eq_true_eq]
      omega

theorem State.claim_zero (s : State) (h : Head) : s.claim h 0 = s := by
  unfold State.claim
  split <;> rfl

/-- A grant that the headroom covers takes no claim (R123, R124, R134). -/
theorem State.grantService_covered {demand : Nat} (covers : wantOf demand (s.rowAt h).cap ≤ s.headroom h)
    (activity : Option Kind) (feed : Option Nat) : s.grantService h demand activity feed =
      (s.modRow h fun r => { r with demand, grant := wantOf demand (s.rowAt h).cap }).placeDrive
        { dest := (s.configAt h).drive, head := h, grant := wantOf demand (s.rowAt h).cap, activity,
          source := if wantOf demand (s.rowAt h).cap = demand then .control else .capped, feedLen := feed,
          cancel := false } := by
  unfold State.grantService State.grantFor
  simp only [grantOf_covered covers, sourceOf_covered covers, Nat.sub_self, State.claim_zero]

end Sys2Proof.Machine
end

section
/-! The loop of a service: demand, integrator, limited flag and the context it leaves (R106 to R117). -/

namespace Sys2Proof.Machine

variable {s t u v : State} {k : Kind} {h g : Head} {d : ClassDesc} {a : Assignment} {w x : StepWord} {tm : Nat}

/-! ### The bookkeeping (R106 to R108) -/

/-- The context after the bookkeeping of a service (R107, R108). -/
def State.bookedCtx (s : State) (h : Head) (k : Kind) (d : ClassDesc) (tm : Nat) : HeadCtx :=
  let c := s.ctxAt h
  let gap := (c.sampleMark.map fun m => min (s.now - m) (s.configAt h).staleness).getD 0
  { c with
    lastTemp := some tm, tStart := some (c.origin tm), stepClock := c.clockAt k, peak := some (max (c.peak.getD tm) tm),
    wet := if d.liquidus ≤ tm then min (c.wet + gap) 16000000 else c.wet, sampleMark := some s.now }

/-- R107 in one: the origin and the step clock a service uses. -/
theorem supplyStart_eq (k : Kind) (tm : Nat) (c : HeadCtx) :
    supplyStart k tm c = { c with tStart := some (c.origin tm), stepClock := c.clockAt k } := by
  unfold supplyStart HeadCtx.origin HeadCtx.clockAt
  cases start : c.tStart with
  | none => simp
  | some n =>
    simp only [Option.isSome_some, if_true, Option.getD_some, reduceCtorEq, false_and, if_false]
    rw [← start]

theorem State.bookkeep_eq (s : State) (h : Head) (k : Kind) (d : ClassDesc) (tm : Nat) :
    bookkeep k d (s.configAt h).staleness s.now tm { s.ctxAt h with lastTemp := some tm } = s.bookedCtx h k d tm := by
  unfold bookkeep
  rw [supplyStart_eq]
  rfl

/-- The state after the bookkeeping of a service. -/
def State.booked (s : State) (h : Head) (k : Kind) (d : ClassDesc) (tm : Nat) : State :=
  s.modCtx h fun _ => s.bookedCtx h k d tm

theorem State.booked_ctxAt (s : State) (h : Head) (k : Kind) (d : ClassDesc) (tm : Nat) :
    (s.booked h k d tm).ctxAt h = s.bookedCtx h k d tm := by
  rw [State.booked, State.modCtx_ctxAt, if_pos rfl]

/-! ### The loop (R109 to R114) -/

theorem couplingTerm_eq (f : Head → Nat) (ns : List Neighbour) :
    couplingTerm f ns = (ns.map fun n => n.coeff * f n.head / 1024).sum := by
  induction ns with
  | nil => rfl
  | cons n ns ih => rw [couplingTerm, ih, List.map_cons, List.sum_cons]

theorem State.loopTarget_booked (s : State) (h : Head) (k : Kind) (w : StepWord) (d : ClassDesc) (tm : Nat) :
    ((loopTarget k w (s.bookedCtx h k d tm) : Nat) : Int) - tm = s.errorAt h k w tm := by
  unfold loopTarget State.errorAt rampTarget rampIncrement
  by_cases ramp : k = .ramp
  · subst ramp
    rfl
  · rw [if_neg ramp]
    exact congrArg (fun n : Nat => (n : Int) - tm) (if_pos ramp).symm

theorem State.nextAcc_booked (s : State) (h : Head) (w : StepWord) (d : ClassDesc) (tm : Nat)
    (loops : k ≠ .hold ∧ k ≠ .cool) :
    nextAcc (s.ctxAt h).iAcc d.ki (s.configAt h).rating (s.ctxAt h).limited (s.errorAt h k w tm) = s.accAt h k w d tm := by
  unfold nextAcc State.accAt clampInt
  by_cases limited : (s.ctxAt h).limited = true
  · simp [limited]
  · rw [if_neg limited, if_neg (by simp [loops.1, loops.2, limited]), min_comm]

/-- The loop terms of a service are those of the statements. -/
theorem State.loopOf_booked (s : State) (h : Head) (w : StepWord) (d : ClassDesc) (tm : Nat)
    (loops : k ≠ .hold ∧ k ≠ .cool) : (s.booked h k d tm).loopOf h k w d tm =
      { err := s.errorAt h k w tm, acc := s.accAt h k w d tm, d1 := s.trimmedAt h k w d tm,
        demand := (max 0 (min (s.ceilingAt h w : Int) (s.trimmedAt h k w d tm))).toNat } := by
  have error := s.loopTarget_booked h k w d tm
  have acc := s.nextAcc_booked h w d tm loops
  have iAcc : (s.bookedCtx h k d tm).iAcc = (s.ctxAt h).iAcc := rfl
  have limited : (s.bookedCtx h k d tm).limited = (s.ctxAt h).limited := rfl
  have config : (s.booked h k d tm).configAt h = s.configAt h := rfl
  have rows (j : Head) : (s.booked h k d tm).rowAt j = s.rowAt j := rfl
  have trim : trimmed (w.base + propTerm d.kp (s.errorAt h k w tm) + (s.accAt h k w d tm / 256 : Nat) -
      (((s.configAt h).neighbours.map fun n => n.coeff * (s.rowAt n.head).grant / 1024).sum : Nat))
      ((s.booked h k d tm).trimOf h d) = s.trimmedAt h k w d tm := by
    unfold State.trimOf
    rw [State.booked_ctxAt]
    rfl
  have ceiling : (s.booked h k d tm).serviceCeiling h w = s.ceilingAt h w := rfl
  unfold State.loopOf loopTerms
  simp only [State.booked_ctxAt, error, iAcc, limited, config, rows, acc, couplingTerm_eq, trim, ceiling, clampInt,
    min_comm (s.trimmedAt h k w d tm)]

/-- The demand, the accumulator and the limited flag of a service are those of the statements (R113 to R116). -/
theorem State.demandOf_booked (s : State) (h : Head) (k : Kind) (w : StepWord) (d : ClassDesc) (tm : Nat) :
    (s.booked h k d tm).demandOf h k w d tm =
      { demand := s.demandAt h k w d tm, acc := s.accAt h k w d tm, limited := s.limitedAt h k w d tm } := by
  have ceiling : (s.booked h k d tm).serviceCeiling h w = s.ceilingAt h w := rfl
  have loops (kind : k ≠ .hold ∧ k ≠ .cool) : (⟨((s.booked h k d tm).loopOf h k w d tm).demand,
      ((s.booked h k d tm).loopOf h k w d tm).acc,
      limitedAfter ((s.booked h k d tm).loopOf h k w d tm) ((s.booked h k d tm).serviceCeiling h w)⟩ : ServiceDemand) =
      { demand := s.demandAt h k w d tm, acc := s.accAt h k w d tm, limited := s.limitedAt h k w d tm } := by
    have demand : (max 0 (min (s.ceilingAt h w : Int) (s.trimmedAt h k w d tm))).toNat = s.demandAt h k w d tm := by
      rw [State.demandAt, if_neg kind.2, if_neg kind.1]
    rw [s.loopOf_booked h w d tm kind, ceiling]
    simp only [demand, ServiceDemand.mk.injEq, true_and]
    funext n
    rw [limitedAfter, State.limitedAt, if_neg kind.2, if_neg kind.1, Bool.decide_and, Bool.decide_and]
  cases k with
  | hold =>
    have acc : (s.bookedCtx h .hold d tm).iAcc = s.accAt h .hold w d tm := by
      unfold State.accAt
      rw [if_pos (.inl rfl)]
      rfl
    have demand : min w.base (s.ceilingAt h w) = s.demandAt h .hold w d tm := rfl
    unfold State.demandOf
    simp only [State.booked_ctxAt, acc, ceiling, demand]
    rfl
  | cool =>
    have acc : (s.bookedCtx h .cool d tm).iAcc = s.accAt h .cool w d tm := by
      unfold State.accAt
      rw [if_pos (.inr (.inl rfl))]
      rfl
    unfold State.demandOf
    simp only [State.booked_ctxAt, acc]
    rfl
  | ramp | soak | feed => exact loops (by decide)

/-! ### The service as a whole (R117) -/

/-- The grant of a service whose demand the headroom covers. -/
def State.coveredGrant (s : State) (h : Head) (k : Kind) (w : StepWord) (d : ClassDesc) (tm : Nat) : Nat :=
  wantOf (s.demandAt h k w d tm) (s.rowAt h).cap

theorem State.drive_order (v : State) (h : Head) (B : HeadCtx) (F : HeadCtx → HeadCtx) (R : Row → Row) (f : DriveFrame) :
    (((v.modCtx h fun _ => B).modRow h R).placeDrive f).modCtx h F =
      ((v.modCtx h fun _ => F B).modRow h R).placeDrive f := by
  have moved (u : State) : ((u.modRow h R).placeDrive f).modCtx h F = ((u.modCtx h F).modRow h R).placeDrive f := rfl
  rw [moved, State.modCtx_modCtx]

/-- A service up to its end test, where the headroom covers the demand (R113 to R117). -/
theorem State.driveHead_booked (covers : s.coveredGrant h k w d tm ≤ s.headroom h) :
    (s.booked h k d tm).driveHead h k w d tm =
      ((s.modCtx h fun _ => s.servedCtx h k w d tm (s.coveredGrant h k w d tm)).modRow h fun r =>
        { r with demand := s.demandAt h k w d tm, grant := s.coveredGrant h k w d tm }).placeDrive
        (s.serviceFrame h k w (s.coveredGrant h k w d tm)
          (if s.coveredGrant h k w d tm = s.demandAt h k w d tm then .control else .capped)) := by
  have row : (s.booked h k d tm).rowAt h = s.rowAt h := rfl
  have room : (s.booked h k d tm).headroom h = s.headroom h := rfl
  have config : (s.booked h k d tm).configAt h = s.configAt h := rfl
  have granted : (s.booked h k d tm).grantFor h (s.demandAt h k w d tm) = s.coveredGrant h k w d tm := by
    unfold State.grantFor
    rw [row, room]
    exact grantOf_covered covers
  have feed : feedRequest k w (s.bookedCtx h k d tm) = if k = .feed ∧ (s.ctxAt h).feedOwed = true then some w.param else none := by
    unfold feedRequest
    simp only [Bool.and_eq_true, decide_eq_true_eq]
    rfl
  unfold State.driveHead
  simp only [State.demandOf_booked, granted]
  rw [State.grantService_covered (s := s.booked h k d tm) covers, State.booked_ctxAt, feed, row, config]
  refine (State.drive_order s h _ _ _ _).trans ?_
  refine congrArg (fun c => ((s.modCtx h fun _ => c).modRow h _).placeDrive _) ?_
  have owed : (if k = .feed then false else (s.bookedCtx h k d tm).feedOwed) = ((s.ctxAt h).feedOwed && k != .feed) := by
    split
    · next kind => rw [kind, bne_self_eq_false, Bool.and_false]
    · next kind =>
      rw [bne_iff_ne.mpr kind, Bool.and_true]
      rfl
  rw [owed]
  rfl

/-- The end test of a service is that of the statements (R7, R11). -/
theorem endTest_served (s : State) (h : Head) (k : Kind) (w : StepWord) (d : ClassDesc) (tm n : Nat) :
    endTest k w tm (s.servedCtx h k w d tm n) = (s.ctxAt h).stepDone k w tm := by
  cases k with
  | ramp =>
    have origin : (s.servedCtx h .ramp w d tm n).tStart.getD 0 = (s.ctxAt h).origin tm := rfl
    have clock : (s.servedCtx h .ramp w d tm n).stepClock = (s.ctxAt h).clockAt .ramp := rfl
    simp only [endTest, HeadCtx.stepDone, origin, clock, rampEnds, rampIncrement]
    by_cases rises : (s.ctxAt h).origin tm ≤ w.target
    · simp [rises, Nat.not_lt.mpr rises]
    · simp [rises, Nat.lt_of_not_le rises]
  | cool => rfl
  | soak | hold | feed => rfl

end Sys2Proof.Machine
end

section
/-! SERVICE of a HEATING head that ends its step or its cycle (R97, R106, R117). -/

namespace Sys2Proof.Machine

variable {s t u v : State} {k : Kind} {h g : Head} {d : ClassDesc} {a : Assignment} {w x : StepWord} {tm : Nat}

/-- The sample of a head taken: the pointer moved to the head and its slot emptied (R97). -/
def State.turned (s : State) (h : Head) : State :=
  { s with pointer := h }.modIntake h fun i => { i with slot := none }

/-- The state after a service as the statements name it, from the state in which the sample has been taken. -/
theorem State.served_eq (s : State) (h : Head) (p : PendingSample) (k : Kind) (w : StepWord) (d : ClassDesc) :
    s.served h p k w d =
      (((s.turned h).modCtx h fun _ => (s.turned h).servedCtx h k w d p.temp ((s.turned h).coveredGrant h k w d p.temp)).modRow
        h fun r => { r with demand := (s.turned h).demandAt h k w d p.temp, grant := (s.turned h).coveredGrant h k w d p.temp
        }).placeDrive ((s.turned h).serviceFrame h k w ((s.turned h).coveredGrant h k w d p.temp)
          (if (s.turned h).coveredGrant h k w d p.temp = (s.turned h).demandAt h k w d p.temp then .control else .capped)) :=
  rfl

theorem State.Sound.turned (hs : s.Sound Flight.none) (h : Head) : (s.turned h).Sound Flight.none := by
  have pointed : ({ s with pointer := h } : State).Sound Flight.none :=
    hs.unseen s.pending s.now s.pins s.store s.minStrength h s.cache.fetchLimit
  exact pointed.modIntake (pointed.heads h).unwatched

/-- A service of a head that runs a step (R97, R98). -/
theorem State.takeService_heating {p : PendingSample} (next : s.NextToServe h p) (heating : (s.ctxAt h).state = .heating)
    (step : s.runningStep h = some (w, k, d)) : s.takeService = ((s.turned h).serveStep h k w d p.temp).conclude h := by
  have running : (s.turned h).runningStep h = some (w, k, d) := step
  have state : ((s.turned h).ctxAt h).state = .heating := heating
  have serves : s.takeService = (s.turned h).serveHead h p.temp := by
    unfold State.takeService
    rw [State.nextServed_eq next]
    rfl
  rw [serves, State.serveHead, state]
  simp only [running]

/-- The state of a head whose sample lies above the maximum of its class (R106). -/
def State.overheated (s : State) (h : Head) (tm : Nat) : State :=
  (s.turned h).modCtx h fun c => { c with lastTemp := some tm, peak := some (max (c.peak.getD tm) tm) }

theorem State.serveStep_overheat (hot : d.maxTemp < tm) : (s.turned h).serveStep h k w d tm =
    ⟨s.overheated h tm, some ((s.overheated h tm).endingNow h .overheat)⟩ := by
  unfold State.serveStep
  rw [if_pos hot]
  rfl

theorem State.driveHead_turned {p : PendingSample}
    (covers : (s.turned h).coveredGrant h k w d p.temp ≤ (s.turned h).headroom h) :
    ((s.turned h).booked h k d p.temp).driveHead h k w d p.temp = s.served h p k w d :=
  (State.driveHead_booked covers).trans (s.served_eq h p k w d).symm

theorem State.served_ctxAt (s : State) (h j : Head) (p : PendingSample) (k : Kind) (w : StepWord) (d : ClassDesc) :
    (s.served h p k w d).ctxAt j = if j = h then
      (s.turned h).servedCtx h k w d p.temp ((s.turned h).coveredGrant h k w d p.temp) else s.ctxAt j := by
  have context : (s.served h p k w d).ctxAt j = ((s.turned h).modCtx h fun _ =>
      (s.turned h).servedCtx h k w d p.temp ((s.turned h).coveredGrant h k w d p.temp)).ctxAt j := by
    rw [State.served_eq]
    rfl
  rw [context, State.modCtx_ctxAt]
  rfl

theorem Progress.conclude_ended (u : State) (h : Head) (e : Ending) :
    (⟨u, some e⟩ : Progress).conclude h = (u.terminate h e).conclude := rfl

/-- A service whose demand the headroom covers and that ends its step (R117). -/
theorem State.serveStep_done {p : PendingSample} (cool : p.temp ≤ d.maxTemp)
    (covers : (s.turned h).coveredGrant h k w d p.temp ≤ (s.turned h).headroom h)
    (done : (s.ctxAt h).stepDone k w p.temp = true) :
    (s.turned h).serveStep h k w d p.temp = (s.served h p k w d).takeEndEvent h := by
  have booked : ((s.turned h).modCtx h fun c => bookkeep k d ((s.turned h).configAt h).staleness (s.turned h).now p.temp
      { c with lastTemp := some p.temp }) = (s.turned h).booked h k d p.temp :=
    State.modCtx_congr ((s.turned h).bookkeep_eq h k d p.temp)
  have ends : endTest k w p.temp ((s.served h p k w d).ctxAt h) = true := by
    rw [State.served_ctxAt, if_pos rfl, endTest_served]
    exact done
  unfold State.serveStep
  rw [if_neg (Nat.not_lt.mpr cool)]
  simp only [booked, State.driveHead_turned covers, ends, if_true]

theorem State.Sound.served {p : PendingSample} (hs : s.Sound Flight.none) (heating : (s.ctxAt h).state = .heating)
    (covers : (s.turned h).coveredGrant h k w d p.temp ≤ (s.turned h).headroom h) :
    (s.served h p k w d).Sound Flight.none := by
  have turned := hs.turned h
  have book := (s.turned h).bookkeep_eq h k d p.temp
  obtain ⟨keeps, acc, step⟩ := bookkeep_cycle k d ((s.turned h).configAt h).staleness (s.turned h).now p.temp
    { (s.turned h).ctxAt h with lastTemp := some p.temp }
  rw [book] at keeps acc step
  have booked : ((s.turned h).booked h k d p.temp).Sound Flight.none :=
    turned.inStep (f := fun _ => (s.turned h).bookedCtx h k d p.temp) rfl heating keeps
      (acc.le.trans (turned.power.integrators h).1) step
  rw [← State.driveHead_turned covers]
  exact booked.driveHead rfl (by rw [State.booked_ctxAt]; exact heating) k w d p.temp

/-- What a service leaves as it stood. -/
theorem State.served_view {α : Type} {f : HeadCtx → α} (p : PendingSample)
    (hf : ∀ s : State, ∀ n, f (s.servedCtx h k w d p.temp n) = f (s.ctxAt h)) (j : Head) :
    f ((s.served h p k w d).ctxAt j) = f (s.ctxAt j) := by
  rw [State.served_ctxAt]
  split
  · next hj =>
    rw [hf, hj]
    rfl
  · rfl

theorem State.served_boundDesc (s : State) (h j : Head) (p : PendingSample) (k : Kind) (w : StepWord) (d : ClassDesc) :
    (s.served h p k w d).boundDesc j = s.boundDesc j :=
  State.boundDesc_congr (State.served_view (f := HeadCtx.binding) p (fun _ _ => rfl) j) fun _ _ => rfl

theorem State.served_closes (s : State) (h : Head) (p : PendingSample) (k : Kind) (w : StepWord) (d : ClassDesc)
    (c : CarrierEntry) : (s.served h p k w d).closes c = s.closes c := by
  unfold State.closes
  rw [State.holdsRecordOf_congr (s := s) fun j => State.served_view (f := HeadCtx.heldRecord) p (fun _ _ => rfl) j]

theorem State.overheated_ctxAt (s : State) (h j : Head) (tm : Nat) : (s.overheated h tm).ctxAt j =
    if j = h then { s.ctxAt h with lastTemp := some tm, peak := some (max ((s.ctxAt h).peak.getD tm) tm) }
    else s.ctxAt j := State.modCtx_ctxAt (s.turned h) h j _

theorem State.overheated_closes (s : State) (h : Head) (tm : Nat) (c : CarrierEntry) :
    (s.overheated h tm).closes c = s.closes c := by
  unfold State.closes
  rw [State.holdsRecordOf_congr (s := s) fun j => ?_]
  rw [State.overheated_ctxAt]
  split
  · next hj => rw [hj]
  · rfl

end Sys2Proof.Machine

open Sys2Proof Sys2Proof.Machine

/-- Settles O60: the end at the sample, and the end event after the frame of the service. -/
theorem serviceEndsSteps : Obligations.ServiceEndsSteps := by
  unfold Obligations.ServiceEndsSteps
  intro s h p a w k d taking lawful settled wait next runs
  obtain ⟨heating, current, -, -, -, step⟩ := runs
  obtain ⟨running, kind, desc⟩ := State.runningStep_iff.mp step
  have serves := State.takeService_heating next heating step
  have acts (t : State) (ht : (((s.turned h).serveStep h k w d p.temp).conclude h).report = t) :
      exec .service s = .next t := by
    show execService s = _
    rw [execService, event, takes_free taking.1, serves, ht]
  refine ⟨fun hot => ⟨_, acts _ rfl, ?_⟩, fun cool covers done cont => ?_⟩
  · have own := s.overheated_ctxAt h h p.temp
    rw [if_pos rfl] at own
    have desc' : (s.overheated h p.temp).boundDesc h = some d :=
      (State.boundDesc_congr (s := s) (t := s.overheated h p.temp) (by rw [own]) fun _ _ => rfl).trans desc
    have kinds : (s.overheated h p.temp).runningKind h = some k :=
      (State.runningKind_of_step (by rw [own]; exact running)).trans kind
    have sound : (s.overheated h p.temp).Sound Flight.none := (lawful.sound.turned h).modBare rfl
    have ended := sound.cycleEnded (by rw [own]; exact heating) wait (by rw [own]; exact current) desc'
      (fun c hc => (s.overheated_closes h p.temp c).trans (settled.2 c hc)) .overheat (decide (k = .feed)) taking.1 rfl
    have cancel : decide (some k = some Kind.feed) = decide (k = .feed) := by simp
    rw [State.serveStep_overheat hot, Progress.conclude_ended, State.endingNow, kinds, cancel]
    exact ended
  · have covers' : (s.turned h).coveredGrant h k w d p.temp ≤ (s.turned h).headroom h := covers
    have sound := lawful.sound.served (k := k) (w := w) (d := d) (p := p) heating covers'
    have step' : ((s.served h p k w d).ctxAt h).step = some w :=
      (State.served_view (f := HeadCtx.step) p (fun _ _ => rfl) h).trans running
    have heats : ((s.served h p k w d).ctxAt h).state = .heating :=
      (State.served_view (f := HeadCtx.state) p (fun _ _ => rfl) h).trans heating
    have desc' := (s.served_boundDesc h h p k w d).trans desc
    have exits : exitCheck w d.minWet ((s.served h p k w d).ctxAt h) = none := by
      refine exitCheck_other ?_
      rw [kind]
      rintro ⟨⟩
      cases done
    have decision := (State.endDecision_of step' desc').trans (decideEnd_passed cont exits)
    have taken := State.serveStep_done cool covers' done
    refine ⟨fun last => ⟨_, acts _ rfl, ?_⟩, fun more v hv valid => ⟨_, acts _ rfl, ?_⟩⟩
    · rw [taken]
      refine sound.endEvent_ends taking.1 heats wait ?_ desc' (fun c hc => (s.served_closes h p k w d c).trans
        (settled.2 c hc)) ?_
      · exact (State.served_view (f := HeadCtx.current) p (fun _ _ => rfl) h).trans current
      · rw [decision, last]
        rfl
    · rw [taken]
      refine State.chainedNext_of (.refl _) rfl rfl taking.1 heats desc' ?_ rfl
      rw [decision, more, State.served_view (f := HeadCtx.prefetch) p (fun _ _ => rfl), hv, if_pos rfl, nextDecision,
        if_neg valid]
end

section
/-! The victim of a miss, by the ranks of the idle entries (R30). -/

namespace Sys2Proof.Machine

variable {s : State} {e v : EntryIx}

/-- The search over the entries finds the lowest index. -/
theorem find_least {p : EntryIx → Bool} (he : p e = true) (least : ∀ f, p f = true → e ≤ f) :
    allEntries.find? p = some e := by
  have sorted : allEntries.Pairwise (· < ·) := by decide
  cases found : allEntries.find? p with
  | none => exact absurd he (List.find?_eq_none.mp found e (mem_allEntries e))
  | some f =>
    obtain ⟨hf, before, after, split, passed⟩ := List.find?_eq_some_iff_append.mp found
    have place : e ∈ before ++ f :: after := split ▸ mem_allEntries e
    rcases List.mem_append.mp place with earlier | later
    · simpa [he] using passed e earlier
    · rcases List.mem_cons.mp later with rfl | later
      · rfl
      · rw [split, List.pairwise_append, List.pairwise_cons] at sorted
        exact absurd (least f hf) (not_le.mpr (sorted.2.1.1 e later))

theorem EntryBody.isResident_iff {b : EntryBody} : b.isResident = true ↔ ∃ tag d, b = .resident tag d := by
  cases b <;> simp [EntryBody.isResident, EntryBody.desc?]

theorem EntryBody.isInvalid_iff {b : EntryBody} : b.isInvalid = true ↔ b = .invalid := by
  cases b <;> simp [EntryBody.isInvalid, EntryBody.cover]

/-- An INVALID entry, with none before it, is the victim. -/
theorem State.victim_of_invalid (he : (s.entryAt e).body = .invalid)
    (first : ∀ f, f < e → (s.entryAt f).body ≠ .invalid) : s.victim = some e := by
  have found : allEntries.find? (fun f => (s.entryAt f).body.isInvalid) = some e := by
    refine find_least (EntryBody.isInvalid_iff.mpr he) fun f hf => ?_
    exact not_lt.mp fun lt => first f lt (EntryBody.isInvalid_iff.mp hf)
  simp only [State.victim, found]

/-- Where no entry is INVALID the victim is the entry of the highest rank. -/
theorem State.victim_of_full (full : ∀ e, (s.entryAt e).body ≠ .invalid) : s.victim = bestVictim s allEntries := by
  have none : allEntries.find? (fun f => (s.entryAt f).body.isInvalid) = none :=
    List.find?_eq_none.mpr fun f _ hf => full f (EntryBody.isInvalid_iff.mp hf)
  simp only [State.victim, none]

/-- An entry whose rank lies above all others is the best victim. -/
theorem bestVictim_of_highest {es : List EntryIx} (he : e ∈ es) (pos : 0 < (s.entryAt e).victimRank)
    (highest : ∀ f, f ≠ e → (s.entryAt f).victimRank < (s.entryAt e).victimRank) : bestVictim s es = some e := by
  induction es with
  | nil => cases he
  | cons f fs ih =>
    unfold bestVictim
    by_cases hef : e ∈ fs
    · rw [ih hef]
      by_cases hfe : f = e
      · subst hfe; simp
      · simp [Nat.not_le.mpr (highest f hfe)]
    · obtain rfl : e = f := (List.mem_cons.mp he).resolve_right hef
      cases hb : bestVictim s fs with
      | none => simp [pos]
      | some b =>
        by_cases hbe : b = e
        · subst hbe; simp
        · simp [Nat.le_of_lt (highest b hbe)]

/-- The rank of an idle RESIDENT entry. -/
theorem Entry.victimRank_of_idle {x : Entry} {tag : ClassId} {d : ClassDesc} (hb : x.body = .resident tag d)
    (hu : x.users = 0) : x.victimRank = 1 + (2 - retentionCode d.retention) * 8 + min x.recency 7 := by
  simp [Entry.victimRank, hb, hu]

end Sys2Proof.Machine

open Sys2Proof Sys2Proof.Machine

/-- Settles O34: the first INVALID entry, or else the idle entry of the highest rank. -/
theorem victimChosen : Obligations.VictimChosen := by
  unfold Obligations.VictimChosen
  intro s recency
  refine ⟨fun e => State.victim_of_invalid, fun full => ⟨fun e tag d idle best => ?_, fun none => ?_⟩⟩
  · obtain ⟨body, users⟩ := idle
    have rank := Entry.victimRank_of_idle body users
    rw [State.victim_of_full full]
    refine bestVictim_of_highest (mem_allEntries e) (by omega) fun f hf => ?_
    by_cases pos : 0 < (s.entryAt f).victimRank
    · obtain ⟨resident, users'⟩ := Entry.victimRank_pos.mp pos
      obtain ⟨tag', d', body'⟩ := EntryBody.isResident_iff.mp resident
      have below := best f tag' d' hf ⟨body', users'⟩
      have bound := recency.1 e
      have bound' := recency.1 f
      have code (r : Retention) : retentionCode r ≤ 2 := by cases r <;> decide
      have := code d'.retention
      rw [rank, Entry.victimRank_of_idle body' users']
      rcases below with lower | ⟨same, older⟩
      · omega
      · rw [same]; omega
    · omega
  · rw [State.victim_of_full full]
    refine bestVictim_none.mpr fun e _ => Nat.eq_zero_of_not_pos fun pos => ?_
    obtain ⟨resident, users⟩ := Entry.victimRank_pos.mp pos
    obtain ⟨tag, d, body⟩ := EntryBody.isResident_iff.mp resident
    exact none e tag d ⟨body, users⟩
end

section
/-! The checks of CLASSLOAD and the refusals of its matching (R24, R36, R37). -/

namespace Sys2Proof.Machine

variable {s : State} {src tag : Byte} {p : List Byte} {d : ClassDesc} {e f : EntryIx}

/-- A CLASSLOAD that leaves the state as it is: the REPLY is all that changes. -/
theorem exec_classload_still (takes : s.Takes src) {st : Status} {items : List Byte}
    (work : classloadWork p s.reserving = { state := s.reserving, status := st, items }) :
    exec (.classload src tag p) s =
      .next (s.replied src tag (be8 0x05 ++ be8 0x00 ++ be8 (statusCode st) ++ items)) := by
  show execClassload src tag p s = _
  rw [execClassload, takes_free takes.1.1, answered_still takes _ (by rw [work]), work]

/-- A field of R24 out of its range is refused RANGE. -/
theorem checkLoad_range (length : p.length = 21 + 2 * u8At p 20) (count : u8At p 20 = 2 ^ u8At p 2)
    (wrong : 3 < u8At p 2 ∨ 2 < u8At p 3 ∨ u8At p 7 = 0 ∨ 64 < u8At p 7 ∨ 64 < u8At p 6 + u8At p 7) :
    checkLoad p = .error .range := by
  have retention (h : 2 < u8At p 3) : retentionOf (u8At p 3) = none := by
    unfold retentionOf
    split
    · omega
    · omega
    · omega
    · rfl
  unfold checkLoad
  rw [if_neg (by omega)]
  split
  · split
    · rfl
    · next found =>
      have named : ¬ 2 < u8At p 3 := fun h => by rw [retention h] at found; cases found
      rw [if_neg (by omega)]
  · rfl

/-- A load whose matching is refused is answered with the status and the entry that stands in the way. -/
theorem State.classloadWork_refused (clamped : d.Clamped (clearLow d.classId d.span)) (start : d.start < 65536)
    (minWet : d.minWet < 65536) {st : Status} (refused : s.matchLoad d = .refused st e) :
    classloadWork (descBytes d) s.reserving = { state := s.reserving, status := st, items := be8 e.val } := by
  have refused : s.reserving.matchLoad d = .refused st e := refused
  simp only [classloadWork, checkLoad_of_clamped clamped start minWet, refused]

/-- A load that matches a RESIDENT entry in use is refused with its index (R36). -/
theorem State.matchLoad_inUse (one : s.OneMatch) (resident : (s.entryAt e).body.isResident = true)
    (hit : (s.entryAt e).body.matchesId d.classId = true) (used : 0 < (s.entryAt e).users) :
    s.matchLoad d = .refused .inUse e := by
  have fetches : (allEntries.find? fun f => (s.entryAt f).body.fetches d.classId) = none :=
    List.find?_eq_none.mpr fun f _ hf => by
      obtain ⟨n, body⟩ := EntryBody.fetches_iff.mp hf
      obtain rfl := one d.classId e f hit (by rw [body]; exact EntryBody.fetching_matches.mpr rfl)
      rw [body] at resident
      cases resident
  have found := find_unique (e := e)
    (p := fun f => (s.entryAt f).body.isResident && (s.entryAt f).body.matchesId d.classId)
    (by rw [resident, hit]; rfl) fun f hf => one d.classId f e (Bool.and_eq_true_iff.mp hf).2 hit
  have target : s.loadTarget d.classId = .refused .inUse e := by
    rw [State.loadTarget_eq, fetches, found]
    exact if_neg (Nat.pos_iff_ne_zero.mp used)
  simp only [State.matchLoad, target]

/-- A load that matches no entry and finds no victim finds the cache full (R36). -/
theorem State.matchLoad_full (missed : ∀ e, (s.entryAt e).body.matchesId d.classId = false) (victim : s.victim = none) :
    s.matchLoad d = .full := by
  have fetches : (allEntries.find? fun f => (s.entryAt f).body.fetches d.classId) = none :=
    List.find?_eq_none.mpr fun f _ hf => by
      obtain ⟨n, body⟩ := EntryBody.fetches_iff.mp hf
      have := missed f
      rw [body, EntryBody.fetching_matches.mpr rfl] at this
      cases this
  have hits : (allEntries.find? fun f => (s.entryAt f).body.isResident && (s.entryAt f).body.matchesId d.classId) =
      none := List.find?_eq_none.mpr fun f _ => by simp [missed f]
  have target : s.loadTarget d.classId = .full := by
    rw [State.loadTarget_eq, fetches, hits, victim]
    rfl
  simp only [State.matchLoad, target]

/-- A load whose range an entry in use shares is refused with the lowest index of such an entry (R37). -/
theorem State.matchLoad_overlap (one : s.OneMatch) (goes : s.LoadGoesTo d.classId e)
    (least : ∀ g, s.covered d e g = true ∧ (s.entryAt g).body.isResident = true ∧ 0 < (s.entryAt g).users → f ≤ g)
    (covered : s.covered d e f = true) (resident : (s.entryAt f).body.isResident = true)
    (used : 0 < (s.entryAt f).users) : s.matchLoad d = .refused .overlapInUse f := by
  have overlap : s.overlapInUse e (clearLow d.classId d.span) d.span = some f := by
    obtain ⟨apart, shares⟩ := Bool.and_eq_true_iff.mp covered
    refine find_least ?_ fun g hg => ?_
    · simp only [bne_iff_ne.mp apart, resident, used, shares, ne_eq, not_false_eq_true, decide_true, Bool.and_self]
    · simp only [Bool.and_eq_true, decide_eq_true_eq] at hg
      obtain ⟨⟨⟨apart, resident⟩, used⟩, shares⟩ := hg
      exact least g ⟨Bool.and_eq_true_iff.mpr ⟨bne_iff_ne.mpr apart, shares⟩, resident, used⟩
  simp only [State.matchLoad, goes.target one, overlap]

end Sys2Proof.Machine

open Sys2Proof Sys2Proof.Machine

/-- Settles O35: each refusal from the check or the match that makes it, and the clamps of a payload that passes. -/
theorem classloadChecks : Obligations.ClassloadChecks := by
  unfold Obligations.ClassloadChecks
  refine ⟨fun s src tag p takes length count wrong => ?_,
    fun s src tag d takes one clamped start minWet => ⟨fun e tag' d' body hit used => ?_,
      fun e f goes least covered resident used => ?_, fun missed victim => ?_⟩,
    fun d start first liquidus maxTemp minWet kp ki settle trims count some most inside => ?_⟩
  · refine exec_classload_still (st := .range) (items := []) takes ?_
    simp only [classloadWork, checkLoad_range length count wrong]
    rfl
  · have resident : (s.entryAt e).body.isResident = true := EntryBody.isResident_iff.mpr ⟨tag', d', body⟩
    exact exec_classload_still takes
      (State.classloadWork_refused clamped start minWet (State.matchLoad_inUse one resident hit used))
  · exact exec_classload_still takes (State.classloadWork_refused clamped start minWet
      (State.matchLoad_overlap one goes least covered resident used))
  · have full : s.reserving.matchLoad d = .full := State.matchLoad_full missed victim
    refine exec_classload_still (st := .tableFull) (items := []) takes ?_
    simp only [classloadWork, checkLoad_of_clamped clamped start minWet, full]
    rfl
  · exact checkLoad_descBytes
      { start, liquidus, maxTemp, minWet, kp, ki, settle, trims, count, firstPage := first,
        pageCount := Nat.lt_of_le_of_lt most (by decide) } some most inside
end

section
/-! The reply of READ_CLASS, laid out field by field (R43, R167). -/

namespace Sys2Proof.Machine

variable {s : State} {src tag : Byte} {d : ClassDesc} {e : EntryIx}

/-! ### Flags and trims -/

/-- The bits of a test over the heads. -/
theorem flagsNat_allHeads (p : Head → Bool) :
    flagsNat (allHeads.map p) = (allHeads.map fun h => if p h = true then 2 ^ h.val else 0).sum := by
  have bit (b : Bool) (n : Nat) : (if b = true then n else 0) = n * b.toNat := by cases b <;> simp
  simp only [bit, allHeads, List.map_cons, List.map_nil, flagsNat, List.sum_cons, List.sum_nil]
  simp only [Fin.isValue, Fin.val_zero, Fin.val_one]
  norm_num
  ring

/-- The bytes of a trim as the layout writes them. -/
theorem be16s_eq (i : Int) : be16s i = be16 (i % 65536).toNat := by
  rw [be16s, BitVec.toNat_ofInt]
  rfl

/-- Trims with room for `n` of them: the trims, and zeros for the rest. -/
theorem trims_padded (ts : List Int) (n : Nat) (room : ts.length ≤ n) :
    ((List.range n).flatMap fun i => be16s (ts.getD i 0)) =
      ts.flatMap be16s ++ List.replicate (2 * (n - ts.length)) 0 := by
  induction ts generalizing n with
  | nil =>
    induction n with
    | zero => rfl
    | succ n ih =>
      rw [List.range_succ, List.flatMap_append, ih (Nat.zero_le _)]
      simp [Nat.mul_succ, List.replicate_add, be16s, be16]
  | cons t ts ih =>
    obtain ⟨n, rfl⟩ : ∃ m, n = m + 1 := ⟨n - 1, by simp at room; omega⟩
    have rest := ih n (by simpa using room)
    rw [List.range_succ_eq_map, List.flatMap_cons, List.flatMap_map]
    simp only [List.getD_cons_zero, Nat.succ_eq_add_one, List.getD_cons_succ, rest, List.flatMap_cons, List.append_assoc,
      List.length_cons, Nat.add_sub_add_right]

/-- A clamped descriptor with room for eight trims. -/
theorem descLayout_eq {id : ClassId} (clamped : d.Clamped id) : descLayout d = padTo 37 (descBytes d) := by
  obtain ⟨-, -, -, -, -, -, -, -, count, -⟩ := clamped
  have room : d.trims.length ≤ 8 := by
    have span : d.span.val ≤ 3 := Nat.le_of_lt_succ d.span.isLt
    rw [count]
    exact Nat.pow_le_pow_right (by decide) span
  have head : descLayout d =
      descHeadBytes d ++ (List.range 8).flatMap fun i => be16 ((d.trims.getD i 0) % 65536).toNat := by
    unfold descLayout descHeadBytes
    cases d.retention <;> rfl
  have zeros : 37 - (21 + 2 * d.trims.length) = 2 * (8 - d.trims.length) := by omega
  simp only [← be16s_eq] at head
  rw [head, trims_padded _ _ room, padTo, descBytes_length, zeros, descBytes, List.append_assoc]

/-! ### The entry selected -/

/-- The items of a reply that selects an entry are those of the layout. -/
theorem State.classItems_some (descs : s.DescriptorsClamped) (e : EntryIx) :
    s.classItems (some e) = s.classLayout (some e) := by
  have variants (v : Head → Nat) : (allHeads.flatMap fun h => be8 (v h)) = allHeads.map fun h => BitVec.ofNat 8 (v h) :=
    List.map_eq_flatMap.symm
  have held := descs e
  unfold State.classItems State.entryItems State.classLayout
  simp only [variants, flagsNat_allHeads, fieldOr, Option.map_some, Option.getD_some]
  cases body : (s.entryAt e).body with
  | invalid => rfl
  | fetching id n => rfl
  | resident id d =>
    rw [body] at held
    simp only [descLayout_eq held]
    rfl

theorem State.classItems_none (s : State) : s.classItems none = s.classLayout none := rfl

/-- The length of the layout. -/
theorem State.classLayout_length (s : State) (e : Option EntryIx) :
    (s.classLayout e).length + 3 = 71 + 3 * s.cache.wait.length := by
  have waiters (ws : List Waiter) :
      (ws.flatMap fun w => [BitVec.ofNat 8 w.head.val] ++ be16 w.classId.toNat).length = 3 * ws.length := by
    induction ws with
    | nil => rfl
    | cons w ws ih =>
      rw [List.flatMap_cons, List.length_append, ih, List.length_cons]
      show 3 + _ = _
      omega
  have byte (n : Nat) : (be8 n).length = 1 := rfl
  have desc (d : ClassDesc) : (descLayout d).length = 37 := by
    have trims (f : Nat → Nat) (n : Nat) : ((List.range n).flatMap fun i => be16 (f i)).length = 2 * n := by
      simp [List.length_flatMap, be16_length, Nat.mul_comm]
    rw [descLayout, List.length_append, trims]
    rfl
  have heads : allHeads.length = 16 := rfl
  unfold State.classLayout
  rw [List.length_append, waiters]
  cases e with
  | none =>
    simp only [fieldOr, Option.map_none, Option.getD_none, List.length_append, List.length_replicate, be16_length, byte]
    omega
  | some e =>
    simp only [fieldOr, Option.map_some, Option.getD_some]
    cases (s.entryAt e).body
    all_goals
      simp only [List.length_append, List.length_cons, List.length_nil, List.length_map, List.length_replicate, byte,
        be16_length, desc, heads]
      omega

end Sys2Proof.Machine

open Sys2Proof Sys2Proof.Machine

/-- Settles O32: the entry each selector finds, and its items as the layout writes them. -/
theorem readClassReports : Obligations.ReadClassReports := by
  unfold Obligations.ReadClassReports
  intro s src tag sel b1 b0 takes
  have word : u16At [BitVec.ofNat 8 0x08, sel, b1, b0] 2 = 256 * b1.toNat + b0.toNat := by
    show b1.toNat * 256 + b0.toNat = _
    omega
  have reads {st : Status} {items : List Byte}
      (work : readClassWork [BitVec.ofNat 8 0x08, sel, b1, b0] s.reserving =
        { state := s.reserving, status := st, items }) :
      exec (.readClass src tag [sel, b1, b0]) s =
        .next (s.replied src tag (be8 0x01 ++ be8 0x08 ++ be8 (statusCode st) ++ items)) :=
    request_still takes _ readClassWork work
  refine ⟨fun index descs e at' => ?_, fun byId missed => ?_, fun byId descs one e hit => ?_, fun wrong => ?_,
    s.classLayout_length⟩
  · subst index
    refine reads (st := .ok) ?_
    have small : u16At [BitVec.ofNat 8 0x08, 0, b1, b0] 2 < 8 := by rw [word, at']; exact e.isLt
    have here : (⟨u16At [BitVec.ofNat 8 0x08, 0, b1, b0] 2, small⟩ : EntryIx) = e := Fin.ext (word.trans at')
    rw [← State.classItems_some descs]
    show (if h : _ < 8 then _ else _) = _
    rw [dif_pos small, here]
    rfl
  · subst byId
    refine reads (st := .ok) ?_
    have none : s.matchEntry (id16At [BitVec.ofNat 8 0x08, 1, b1, b0] 2) = none := by
      rw [id16At, word, State.matchEntry_none_iff]
      exact missed
    show Answer.ok s.reserving (s.classItems (s.matchEntry _)) = _
    rw [none, State.classItems_none]
    rfl
  · subst byId
    refine reads (st := .ok) ?_
    have some : s.matchEntry (id16At [BitVec.ofNat 8 0x08, 1, b1, b0] 2) = some e := by
      rw [id16At, word]
      exact State.matchEntry_of_one one hit
    show Answer.ok s.reserving (s.classItems (s.matchEntry _)) = _
    rw [some, State.classItems_some descs]
    rfl
  · refine reads (st := .range) (items := []) ?_
    have selector : u8At [BitVec.ofNat 8 0x08, sel, b1, b0] 1 = sel.toNat := rfl
    unfold readClassWork
    rw [if_neg (by simp), selector]
    rcases wrong with ⟨rfl, far⟩ | far
    · show (if h : _ < 8 then _ else _) = _
      rw [dif_neg (by rw [word]; omega)]
      rfl
    · split
      · omega
      · omega
      · rfl
end

section
/-! FLUSH_CLASS: the entries it drops, and those that stay (R42). -/

namespace Sys2Proof.Machine

variable {s t : State} {src tag : Byte} {code : Nat}

/-- A REQUEST whose block answers with the state `t`, with nothing to report: `t` with the reply. -/
theorem request_moved (takes : s.Takes src) {body : List Byte} {work : List Byte → State → Answer} {st : Status}
    {items : List Byte} (silent : t.notices.reported = {}) (unreserved : t.ring.reserved = false)
    (own : t.ring.own = s.ring.own)
    (hw : work (BitVec.ofNat 8 code :: body) s.reserving = { state := t.reserving, status := st, items }) :
    request code src tag body work s =
      .next (t.replied src tag (be8 0x01 ++ be8 code ++ be8 (statusCode st) ++ items)) := by
  have reply : ∀ f, t.reserving.placeReply f = t.queued f := fun f => by
    show t.modRing (fun r => { r with reserved := false, general := r.general ++ [f] }) = _
    rw [← unreserved]
    rfl
  have silent' : t.reserving.report = t.reserving := State.report_of_silent silent
  rw [request, takes_free takes.1.1, answered_taken takes, hw]
  dsimp only
  rw [silent', reply, ← own]
  rfl

/-- The state with the entries named made INVALID, and no retry started. -/
def State.emptied (s : State) (es : List EntryIx) : State :=
  { s with cache := { s.cache with entries := Vector.ofFn fun e =>
      if e ∈ es then { s.entryAt e with body := .invalid, users := 0 } else s.entryAt e } }

theorem State.emptied_entryAt (s : State) (es : List EntryIx) (f : EntryIx) : (s.emptied es).entryAt f =
    if f ∈ es then { s.entryAt f with body := .invalid, users := 0 } else s.entryAt f := by
  simp [State.emptied, State.entryAt]

theorem invalidateAll_entryAt (es : List EntryIx) (s : State) (f : EntryIx) : (invalidateAll es s).entryAt f =
    if f ∈ es then { s.entryAt f with body := .invalid, users := 0 } else s.entryAt f := by
  induction es generalizing s with
  | nil => simp [invalidateAll]
  | cons e es ih =>
    rw [invalidateAll, ih, State.invalidate_entryAt]
    by_cases hf : f = e
    · subst hf; simp
    · simp [hf]

/-- What no entry's end touches, none of several touches. -/
theorem invalidateAll_view {α : Type} (view : State → α) (hv : ∀ u e, view (u.invalidate e) = view u)
    (es : List EntryIx) (s : State) : view (invalidateAll es s) = view s := by
  induction es generalizing s with
  | nil => rfl
  | cons e es ih => rw [invalidateAll, ih, hv]

/-- Entries dropped while no head waits leave their own change alone. -/
theorem invalidateAll_runRetry {es : List EntryIx} (owed : s.cache.retryOwed = false) (free : s.cache.wait = [] ∨ es = []) :
    (invalidateAll es s).runRetry = s.emptied es := by
  have paid : (invalidateAll es s).runRetry = (invalidateAll es s).pay := by
    rcases free with wait | rfl
    · exact State.runRetry_of_no_wait ((invalidateAll_view (fun u => u.cache.wait) (fun _ _ => rfl) es s).trans wait)
    · refine (State.runRetry_of_not_owed owed).trans ?_
      exact State.ext_at rfl rfl rfl owed (fun _ => rfl) rfl (fun _ => rfl) (fun _ => rfl) (fun _ => rfl) rfl rfl rfl
  rw [paid]
  refine State.ext_at ?_ ?_ ?_ owed.symm (fun f => ?_) ?_ (fun j => ?_) (fun j => ?_) (fun j => ?_) ?_ ?_ ?_
  · exact invalidateAll_view State.base (fun _ _ => rfl) es s
  · exact invalidateAll_view (fun u => u.cache.wait) (fun _ _ => rfl) es s
  · exact invalidateAll_view (fun u => u.cache.fetchLimit) (fun _ _ => rfl) es s
  · exact (invalidateAll_entryAt es s f).trans (s.emptied_entryAt es f).symm
  · exact invalidateAll_view State.carriers (fun _ _ => rfl) es s
  · exact invalidateAll_view (fun u => u.ctxAt j) (fun _ _ => rfl) es s
  · exact invalidateAll_view (fun u => u.intakeAt j) (fun _ _ => rfl) es s
  · exact invalidateAll_view (fun u => u.rowAt j) (fun _ _ => rfl) es s
  · exact invalidateAll_view State.queue (fun _ _ => rfl) es s
  · exact invalidateAll_view State.ring (fun _ _ => rfl) es s
  · exact invalidateAll_view State.notices (fun _ _ => rfl) es s

/-- A head that is ready beside dropped entries was ready before. -/
theorem State.emptied_readyDesc {es : List EntryIx} {h : Head} {d : ClassDesc}
    (ready : (s.emptied es).readyDesc h = some d) : s.readyDesc h = some d := by
  obtain ⟨arming, reqs, desc⟩ := State.readyDesc_iff.mp ready
  refine State.readyDesc_iff.mpr ⟨arming, reqs, ?_⟩
  unfold State.boundDesc at desc ⊢
  obtain ⟨b, hb, body⟩ := Option.bind_eq_some_iff.mp desc
  refine Option.bind_eq_some_iff.mpr ⟨b, hb, ?_⟩
  rw [State.emptied_entryAt] at body
  split at body
  · cases body
  · exact body

/-- Dropped entries leave nothing due. -/
theorem State.Settled.emptied (settled : s.Settled) (es : List EntryIx) : (s.emptied es).Settled := by
  refine ⟨State.firstReady_none_iff.mpr fun h => ?_, settled.2⟩
  by_contra ready
  obtain ⟨d, hd⟩ := Option.ne_none_iff_exists'.mp ready
  have := State.firstReady_none_iff.mp settled.1 h
  rw [State.emptied_readyDesc hd] at this
  cases this

/-- Of the entries named, those that FLUSH_CLASS drops. -/
def State.drops (s : State) (named : EntryIx → Bool) (e : EntryIx) : Bool :=
  named e && ((s.entryAt e).body.isResident && decide ((s.entryAt e).users = 0))

/-- Of the entries named, those that stay. -/
def State.stays (s : State) (named : EntryIx → Bool) (e : EntryIx) : Bool :=
  (named e && !(s.entryAt e).body.isInvalid) && !s.drops named e

theorem State.flushable_filter (s : State) (named : EntryIx → Bool) :
    s.flushable (allEntries.filter named) = allEntries.filter (s.drops named) := by
  rw [State.flushable, List.filter_filter]
  exact List.filter_congr fun e _ => Bool.and_comm _ _

/-- FLUSH_CLASS of the entries named, where nothing is due and no retry binds a head (R42, R33). -/
theorem State.flush_filter (settled : s.Settled) (owed : s.cache.retryOwed = false) (named : EntryIx → Bool)
    (free : s.cache.wait = [] ∨ allEntries.filter (s.drops named) = []) :
    s.flush (allEntries.filter named) =
      { state := s.emptied (allEntries.filter (s.drops named)),
        status := if allEntries.filter (s.stays named) = [] then .ok else .inUse,
        items := be8 (allEntries.filter (s.drops named)).length } := by
  have left : ((allEntries.filter named).filter fun e =>
      !(s.entryAt e).body.isInvalid && !(allEntries.filter (s.drops named)).contains e) =
        allEntries.filter (s.stays named) := by
    rw [List.filter_filter]
    refine List.filter_congr fun e _ => ?_
    have member : (allEntries.filter (s.drops named)).contains e = s.drops named e := by
      rw [Bool.eq_iff_iff, List.contains_iff_mem, List.mem_filter]
      simp [mem_allEntries]
    rw [member, State.stays]
    cases named e <;> simp
  have later := settled.emptied (allEntries.filter (s.drops named))
  unfold State.flush
  simp only [State.flushable_filter, left, invalidateAll_runRetry owed free, State.startReady_of_none later.1,
    State.closeCarriers_of_none later.2, List.isEmpty_iff]

/-- At most one entry matches a class id: the search finds all that do. -/
theorem State.matchEntry_toList (one : s.OneMatch) (c : ClassId) :
    (s.matchEntry c).toList = allEntries.filter fun e => (s.entryAt e).body.matchesId c := by
  have single (e : EntryIx) : allEntries.filter (fun f => decide (f = e)) = [e] := by revert e; decide
  cases found : s.matchEntry c with
  | none => exact (List.filter_eq_nil_iff.mpr fun e _ => by simp [State.matchEntry_none_iff.mp found e]).symm
  | some e =>
    have hit := State.matchEntry_some found
    rw [Option.toList_some, ← single e]
    refine (List.filter_congr fun f _ => ?_).symm
    rw [Bool.eq_iff_iff, decide_eq_true_eq]
    exact ⟨fun hf => one c f e hf hit, fun hf => hf ▸ hit⟩

end Sys2Proof.Machine

open Sys2Proof Sys2Proof.Machine

/-- Settles O33: the entries each selector names, and the flush of the entries named. -/
theorem flushClassDrops : Obligations.FlushClassDrops := by
  unfold Obligations.FlushClassDrops
  intro s src tag sel b1 b0 takes one settled id named flushed left entries
  have word : id16At [BitVec.ofNat 8 0x09, sel, b1, b0] 2 = id := by
    show BitVec.ofNat 16 (b1.toNat * 256 + b0.toNat) = BitVec.ofNat 16 (256 * b1.toNat + b0.toNat)
    rw [Nat.mul_comm]
  have selector : u8At [BitVec.ofNat 8 0x09, sel, b1, b0] 1 = sel.toNat := rfl
  refine ⟨fun far => ?_, fun near free => ?_⟩
  · refine request_refused (code := 0x09) (st := .range) takes _ flushClassWork ?_
    unfold flushClassWork
    rw [if_neg (by simp), selector]
    split
    · omega
    · omega
    · rfl
  · have drops : s.drops (fun e => decide (named e)) = flushed := by
      funext e
      simp only [State.drops, flushed, Bool.decide_and, Bool.decide_eq_true]
    have stays : s.stays (fun e => decide (named e)) = fun e =>
        decide (named e ∧ (s.entryAt e).body.isInvalid = false) && !flushed e := by
      funext e
      simp only [State.stays, drops, Bool.decide_and, Bool.decide_eq_false]
    have flush := State.flush_filter (s := s.reserving) settled takes.1.2.2.2 (fun e => decide (named e))
      (by rw [show s.reserving.drops _ = flushed from drops]; exact free)
    have work : flushClassWork [BitVec.ofNat 8 0x09, sel, b1, b0] s.reserving =
        s.reserving.flush (allEntries.filter fun e => decide (named e)) := by
      unfold flushClassWork
      rw [if_neg (by simp), selector, word]
      have cases : sel = 0 ∨ sel = 1 := by
        have : sel.toNat = 0 ∨ sel.toNat = 1 := by omega
        exact this.imp (fun h => BitVec.eq_of_toNat_eq h) fun h => BitVec.eq_of_toNat_eq h
      rcases cases with rfl | rfl
      · show s.reserving.flush (s.matchEntry id).toList = _
        rw [State.matchEntry_toList one]
        simp [named]
      · simp [named]
    have same : s.emptied (allEntries.filter flushed) = { s with cache := { s.cache with entries } } := by
      have entry (e : EntryIx) : (if e ∈ allEntries.filter flushed then
          { s.entryAt e with body := .invalid, users := 0 } else s.entryAt e) =
            if flushed e then { s.entryAt e with body := .invalid, users := 0 } else s.entryAt e := by
        simp only [List.mem_filter, mem_allEntries, true_and]
      unfold State.emptied
      simp only [entry]
      rfl
    rw [flush, show s.reserving.drops _ = flushed from drops, show s.reserving.stays _ = _ from stays] at work
    have moved := request_moved (t := s.emptied (allEntries.filter flushed)) (code := 0x09) (body := [sel, b1, b0])
      (tag := tag) takes takes.1.2.2.1 takes.1.2.1 rfl work
    rw [same] at moved
    refine moved.trans ?_
    congr 3
    show be8 1 ++ be8 9 ++ be8 (statusCode (if left = [] then .ok else .inUse)) = [1, 9, if left = [] then 0 else 10]
    split <;> rfl
end

section
/-! RESET_STATION: the STOP frames of the HEATING heads, and the part at its [SR] values (R164). -/

namespace Sys2Proof.Machine

variable {s : State} {h : Head} {hs : List Head}

/-! ### The STOP frames (R133, R157, R164) -/

/-- The frame that waits for another head stays the same. -/
theorem placeIn_find_of_ne {fs : List DriveFrame} {f : DriveFrame} (hne : f.head ≠ h) :
    (placeIn fs f).find? (fun g => g.head = h) = fs.find? fun g => g.head = h := by
  induction fs with
  | nil => simp [placeIn, hne]
  | cons g gs ih =>
    by_cases hg : g.head = f.head
    · simp [placeIn, hg, hne]
    · rw [placeIn, if_neg hg, List.find?_cons, List.find?_cons, ih]

/-- A STOP is placed as it is, and no other frame comes. -/
theorem mem_placeIn_stop {fs : List DriveFrame} {f g : DriveFrame} (stop : f.source = .stop) (bare : f.feedLen = none)
    (hg : g ∈ placeIn fs f) : g ∈ fs ∨ g = f := by
  have carried (w : DriveFrame) : { f with feedLen := carriedFeed w f } = f := by
    rw [carriedFeed, if_pos stop, ← bare]
  induction fs with
  | nil => exact .inr (List.mem_singleton.mp hg)
  | cons w ws ih =>
    rw [placeIn] at hg
    split at hg
    · rw [carried] at hg
      exact (List.mem_cons.mp hg).elim .inr fun later => .inl (List.mem_cons_of_mem _ later)
    · rcases List.mem_cons.mp hg with rfl | later
      · exact .inl List.mem_cons_self
      · exact (ih later).imp_left (List.mem_cons_of_mem _)

/-- The STOP that a station reset places for a head. -/
def State.resetStop (s : State) (h : Head) : DriveFrame := s.stopFrame h (s.runningKind h = some .feed)

theorem placeStops_cons (h : Head) (hs : List Head) (s : State) :
    placeStops (h :: hs) s = placeStops hs (s.placeDrive (s.resetStop h)) := rfl

/-- A head that is not named keeps the frame that waits for it. -/
theorem placeStops_find_of_not_mem (away : h ∉ hs) (s : State) :
    (placeStops hs s).ring.drive.find? (fun f => f.head = h) = s.ring.drive.find? fun f => f.head = h := by
  induction hs generalizing s with
  | nil => rfl
  | cons j hs ih =>
    obtain ⟨hne, away⟩ := not_or.mp (List.mem_cons.not.mp away)
    rw [placeStops_cons, ih away]
    exact placeIn_find_of_ne (Ne.symm hne)

/-- A STOP waits for every head named. -/
theorem placeStops_find (named : h ∈ hs) (s : State) :
    (placeStops hs s).ring.drive.find? (fun f => f.head = h) = some (s.resetStop h) := by
  induction hs generalizing s with
  | nil => cases named
  | cons j hs ih =>
    rw [placeStops_cons]
    by_cases later : h ∈ hs
    · exact ih later _
    · obtain rfl : h = j := (List.mem_cons.mp named).resolve_right later
      rw [placeStops_find_of_not_mem later]
      refine (placeIn_own s.ring.drive (s.resetStop h)).trans ?_
      split <;> rfl

/-- The frames that wait after the STOPs waited before, or are the STOPs placed. -/
theorem mem_placeStops {f : DriveFrame} (s : State) (hf : f ∈ (placeStops hs s).ring.drive) :
    f ∈ s.ring.drive ∨ ∃ j ∈ hs, f = s.resetStop j := by
  induction hs generalizing s with
  | nil => exact .inl hf
  | cons j hs ih =>
    rcases ih _ hf with before | ⟨i, hi, placed⟩
    · exact (mem_placeIn_stop rfl rfl before).imp_right fun placed => ⟨j, List.mem_cons_self, placed⟩
    · exact .inr ⟨i, List.mem_cons_of_mem _ hi, placed⟩

/-! ### The reset (R164) -/

theorem placeStops_reserving (hs : List Head) (s : State) : placeStops hs s.reserving = (placeStops hs s).reserving := by
  induction hs generalizing s with
  | nil => rfl
  | cons h hs ih => exact ih (s.placeDrive (s.resetStop h))

theorem State.reserving_stationReset (s : State) : s.reserving.stationReset = s.stationReset.reserving :=
  congrArg State.stationValues (placeStops_reserving (allHeads.filter fun h => (s.ctxAt h).state = .heating) s)

/-- The Ring Port after a station reset: the drive slots with the STOPs, an empty general queue, counters of 0. -/
theorem State.stationReset_ring (s : State) : s.stationReset.ring =
    { s.ring with drive := (placeStops (allHeads.filter fun h => (s.ctxAt h).state = .heating) s).ring.drive,
                  general := [], counters := {} } := by
  obtain ⟨-, ring, -, -⟩ := placeStops_ring (allHeads.filter fun h => (s.ctxAt h).state = .heating) s
  show { (placeStops (allHeads.filter fun h => (s.ctxAt h).state = .heating) s).ring with
    general := [], counters := {} } = _
  rw [ring]

theorem State.stationReset_base (s : State) : s.stationReset.base = { s.base with pointer := 15 } := by
  obtain ⟨base, -⟩ := placeStops_ring (allHeads.filter fun h => (s.ctxAt h).state = .heating) s
  show { (placeStops (allHeads.filter fun h => (s.ctxAt h).state = .heating) s).base with pointer := 15 } = _
  rw [base]

theorem State.stationReset_ctxAt (s : State) (h : Head) :
    s.stationReset.ctxAt h = { state := if (s.configAt h).enable then .idle else .disabled } := by
  obtain ⟨base, -⟩ := placeStops_ring (allHeads.filter fun h => (s.ctxAt h).state = .heating) s
  rw [← State.config_of_base base h]
  simp [State.stationReset, State.stationValues, State.ctxAt, HeadCtx.stationReset]

theorem State.stationReset_cache (s : State) : s.stationReset.cache.fetchLimit = s.cache.fetchLimit ∧
    s.stationReset.notices = { enables := s.notices.enables } := by
  obtain ⟨-, -, notices, cache⟩ := placeStops_ring (allHeads.filter fun h => (s.ctxAt h).state = .heating) s
  have limit := congrArg ClassCache.fetchLimit cache
  have enables := congrArg (fun n : Notices => ({ enables := n.enables } : Notices)) notices
  exact ⟨limit, enables⟩

end Sys2Proof.Machine

open Sys2Proof Sys2Proof.Machine

/-- Settles O7: the STOPs of the HEATING heads, the [SR] values, and the reply alone in the general queue. -/
theorem resetStationEmpties : Obligations.ResetStationEmpties := by
  unfold Obligations.ResetStationEmpties
  intro s src tag takes
  have ring := s.stationReset_ring
  have base := s.stationReset_base
  obtain ⟨limit, notices⟩ := s.stationReset_cache
  have heats {h : Head} : h ∈ (allHeads.filter fun h => (s.ctxAt h).state = .heating) ↔ (s.ctxAt h).state = .heating := by
    simp [mem_allHeads]
  have runs : exec (.resetStation src tag []) s = .next (s.stationReset.replied src tag [0x01, 0x0F, 0x00]) :=
    request_moved (code := 0x0F) (st := .ok) (items := []) (work := resetStationWork) takes (by rw [notices])
      (by rw [ring]; exact takes.1.2.1) (by rw [ring])
      (congrArg (fun t => Answer.ok t []) s.reserving_stationReset)
  refine ⟨fun body long => ?_, _, runs, fun drives resting f hf => ?_, ?_, fun h hot => ?_, fun f hf => ?_, ?_⟩
  · refine request_refused (code := 0x0F) (st := .length) takes body resetStationWork ?_
    rw [resetStationWork, if_pos (by simpa using long)]
  · have hf : f ∈ s.stationReset.ring.drive := hf
    rw [ring] at hf
    refine (placeStops_drive drives fun g hg cold => resting g hg fun hot => cold (heats.mpr hot)).2 f hf
  · show s.stationReset.ring.general ++ [_] = _
    simp only [ring, State.replyTo]
    rfl
  · have found := placeStops_find (heats.mpr hot) s
    refine ⟨s.resetStop h, ?_, rfl, rfl, rfl, rfl, rfl, rfl, rfl⟩
    show _ ∈ s.stationReset.ring.drive
    rw [ring]
    exact List.mem_of_find?_eq_some found
  · have hf : f ∈ s.stationReset.ring.drive := hf
    rw [ring] at hf
    refine (mem_placeStops s hf).imp_right ?_
    rintro ⟨j, hj, rfl⟩
    exact ⟨rfl, heats.mp hj⟩
  · obtain ⟨-, -, held, pins, store, interlock, config, minStrength, -, budget⟩ :=
      (State.base_eq_iff { s with pointer := 15 } s.stationReset).mp base
    have entry (e : EntryIx) : s.stationReset.entryAt e = Entry.atReset e := Vector.getElem_ofFn e.isLt
    have intake (h : Head) : s.stationReset.intakeAt h = {} := Vector.getElem_replicate h.isLt
    have row (h : Head) : s.stationReset.rowAt h = {} := Vector.getElem_replicate h.isLt
    exact ⟨(congrArg RingPort.counters ring :), (congrArg RingPort.forward ring :), (congrArg RingPort.own ring :),
      (congrArg RingPort.cc ring :), (congrArg RingPort.lastSent ring :), (congrArg RingPort.wire ring :),
      s.stationReset_ctxAt, intake, row, rfl, entry, rfl, rfl, rfl, notices, limit, store, config, interlock, minStrength,
      budget, pins, held.trans takes.1.1⟩
end

section
/-! CARRIER for one IDLE head: its assignment is promoted, and nothing else follows (R28 to R32, R46 to R50). -/

namespace Sys2Proof.Machine

variable {s t : State} {h : Head} {a : Assignment} {src tag : Byte}

/-! ### The frame with one assignment (R46, R47) -/

/-- A CARRIER frame with one assignment. -/
def carrierFrame (id : CarrierId) (hd joint : Byte) (cls : ClassId) (flags : Byte) : List Byte :=
  be32 id.toNat ++ [1, hd, joint] ++ be16 cls.toNat ++ [flags]

theorem id32At_carrierFrame (id : CarrierId) (hd joint : Byte) (cls : ClassId) (flags : Byte) :
    id32At (carrierFrame id hd joint cls flags) 0 = id := id32At_be32 id

theorem offeredAt_carrierFrame (id : CarrierId) (hd joint : Byte) (cls : ClassId) (flags : Byte) :
    offeredAt (carrierFrame id hd joint cls flags) 5 1 =
      [{ head := hd.toNat, asg := { carrier := id, joint, classId := cls, refresh := flags.getLsbD 0 } }] := by
  have classId : id16At (carrierFrame id hd joint cls flags) 7 = cls := id16At_be16 cls [flags]
  rw [offeredAt, id32At_carrierFrame, classId]
  rfl

/-- The examination of one assignment of an IDLE head takes it. -/
theorem State.examine_idle {o : Offered} (head : h.val = o.head) (idle : (s.ctxAt h).state = .idle)
    (free : (s.ctxAt h).current = none) : s.examine [] 0 [o] = { taken := [(h, o.asg)], refused := [] } := by
  obtain ⟨n, a⟩ := o
  simp only at head
  subst head
  have room : (s.ctxAt h).hasRoom = true := by simp [HeadCtx.hasRoom, free]
  simp [State.examine, State.checkAssignment, idle, room]

/-- The state with a new carrier of one assignment, which waits in the current slot of its head. -/
def State.offered (s : State) (h : Head) (a : Assignment) : State :=
  (s.withNew a.carrier 1).modCtx h fun c => { c with current := some { asg := a, promoted := false } }

theorem State.offered_ctxAt_of_ne {j : Head} (hj : j ≠ h) : (s.offered h a).ctxAt j = s.ctxAt j :=
  State.modCtx_ctxAt_of_ne _ hj _

theorem State.offered_current (s : State) (h : Head) (a : Assignment) :
    ((s.offered h a).ctxAt h).current = some { asg := a, promoted := false } := by
  rw [State.offered, State.modCtx_ctxAt_self]

/-- A CARRIER frame for one IDLE head at its block (R47, R49). -/
theorem carrierWork_idle {hd joint flags : Byte} {id : CarrierId} {cls : ClassId} (new : s.carrierAt id = none)
    (room : s.carriers.length < 2) (head : h.val = hd.toNat) (idle : (s.ctxAt h).state = .idle)
    (free : (s.ctxAt h).current = none) :
    carrierWork (carrierFrame id hd joint cls flags) s =
      .ok ((s.offered h { carrier := id, joint, classId := cls, refresh := flags.getLsbD 0 }).promote
        h).startReady.closeCarriers [0x01, 0x00] := by
  have count : u8At (carrierFrame id hd joint cls flags) 4 = 1 := rfl
  have taken := State.examine_idle (s := s) (h := h)
    (o := { head := hd.toNat, asg := { carrier := id, joint, classId := cls, refresh := flags.getLsbD 0 } }) head idle free
  have placed : ((s.withNew id 1).ctxAt h).state = .idle := idle
  unfold carrierWork
  rw [if_neg (by rw [count]; simp [carrierFrame, be32, be16]), id32At_carrierFrame, if_neg (by simp [new]),
    if_neg (by simpa using room), count, offeredAt_carrierFrame]
  dsimp only
  rw [taken]
  show Answer.ok (placeAssignments _ (s.withNew id 1)).startReady.closeCarriers _ = _
  rw [placeAssignments, State.placeAssignment, if_pos placed]
  rfl

/-! ### The promotion and what follows (R50) -/

/-- A head in ARMING with its assignment promoted and a binding, its requirements not set yet. -/
def HeadCtx.seatedWith (c : HeadCtx) (a : Assignment) (x : Option Binding) : HeadCtx :=
  { c with state := .arming, current := some { asg := a, promoted := true }, binding := x }

/-- The requirements of an assignment whose carrier is new (R47, R50). -/
def State.firstReqs (s : State) (h : Head) (bound : Bool) : Requirements :=
  { bound, purge := false, released := false, interlock := s.interlock, settle := (s.ctxAt h).settle.isNone }

/-- A promotion whose lookup binds, where no head waits: the head is bound and takes its requirements. -/
theorem State.promote_bound {p : Bool} {b : Bound} {x : Binding} (wait : s.cache.wait = [])
    (current : (s.ctxAt h).current = some ⟨a, p⟩) (found : (s.arming h a).tryBind h a.classId a.refresh = some b)
    (bound : (b.state.ctxAt h).binding = some x) :
    s.promote h = b.state.required h a b.resident ∧ s.BindsOnly b.state ∧
      ∀ j, b.state.ctxAt j = if j = h then (s.ctxAt h).seatedWith a (some x) else s.ctxAt j := by
  obtain ⟨⟨y, ctx⟩, -, -, -, -⟩ := State.tryBind_boundFrom found
  refine ⟨State.promote_of_bound wait current found, (s.bindsOnly_modCtx h _).trans (State.bindsOnly_tryBind found),
    fun j => ?_⟩
  have own := ctx h
  rw [if_pos rfl, State.arming_ctxAt, if_pos rfl] at own
  obtain rfl : y = x := by rw [own] at bound; exact Option.some.inj bound
  rw [ctx, State.arming_ctxAt, State.arming_ctxAt, if_pos rfl]
  split
  · rfl
  · rfl

/-- A promotion whose lookup finds no entry, where no other head waits: the head waits, and takes its requirements. -/
theorem State.promote_starved {p : Bool} (wait : s.cache.wait = []) (current : (s.ctxAt h).current = some ⟨a, p⟩)
    (starved : (s.arming h a).tryBind h a.classId a.refresh = none) :
    s.promote h = (s.starving h a).required h a false ∧ s.BindsOnly (s.starving h a) ∧
      ∀ j, (s.starving h a).ctxAt j = if j = h then (s.ctxAt h).seatedWith a (s.ctxAt h).binding else s.ctxAt j :=
  ⟨State.promote_of_starved wait current starved, ⟨rfl, rfl, rfl, rfl, rfl, rfl, rfl, rfl⟩, fun j => s.arming_ctxAt h j a⟩

section
variable {u : State} {x : Option Binding} {r : Bool} (binds : (s.offered h a).BindsOnly u)
  (ctx : ∀ j, u.ctxAt j = if j = h then ((s.offered h a).ctxAt h).seatedWith a x else (s.offered h a).ctxAt j)
  (new : s.carrierAt a.carrier = none)
include binds ctx new

/-- The requirements that a head takes for an assignment whose carrier is new. -/
theorem State.offered_requirementsFor : u.requirementsFor h a r = s.firstReqs h r := by
  have table : u.carrierAt a.carrier = some (newCarrier a.carrier 1) := by
    have absent : s.carriers.find? (fun c => decide (c.id = a.carrier)) = none := new
    rw [State.carrierAt, binds.carriers]
    show (s.carriers ++ [newCarrier a.carrier 1]).find? _ = _
    simp [List.find?_append, absent, newCarrier]
  have settle : (u.ctxAt h).settle = (s.ctxAt h).settle := by
    rw [ctx, if_pos rfl, State.offered, State.modCtx_ctxAt_self]
    rfl
  have interlock : u.interlock = s.interlock := State.interlock_of_base (s := s) binds.base
  rw [State.requirementsFor, table, settle, interlock]
  rfl

/-- The contexts once the head has taken the requirements of an assignment whose carrier is new. -/
theorem State.offered_required_ctxAt (j : Head) : (u.required h a r).ctxAt j =
    if j = h then { (s.ctxAt h).seatedWith a x with reqs := some (s.firstReqs h r) } else s.ctxAt j := by
  rw [State.required_ctxAt, State.offered_requirementsFor binds ctx new]
  split
  · rw [ctx, if_pos rfl, State.offered, State.modCtx_ctxAt_self]
    rfl
  · next hj => rw [ctx, if_neg hj, State.offered_ctxAt_of_ne hj]

/-- The carrier of the assignment is not released, so that nothing is due. -/
theorem State.offered_settled (sound : s.Sound Flight.none) (settled : s.Settled) : (u.required h a r).Settled := by
  have contexts := State.offered_required_ctxAt (r := r) binds ctx new
  refine ⟨State.firstReady_none_iff.mpr fun j => ?_, fun c hc => ?_⟩
  · by_cases hj : j = h
    · subst hj
      unfold State.readyDesc
      rw [contexts, if_pos rfl, if_neg]
      rintro ⟨-, reqs⟩
      cases reqs
    · refine sound.readyDesc_none_of_ctx (by simp) ?_ (State.firstReady_none_iff.mp settled.1 j)
      rw [contexts, if_neg hj]
  · have held (j : Head) : ((u.required h a r).ctxAt j).heldRecord = (s.ctxAt j).heldRecord := by
      rw [contexts]
      split
      · next hj => rw [hj]; rfl
      · rfl
    have table : (u.required h a r).carriers = s.carriers ++ [newCarrier a.carrier 1] := binds.carriers
    rw [State.closes_congr (c := c) held rfl rfl rfl]
    rw [table] at hc
    rcases List.mem_append.mp hc with old | fresh
    · exact settled.2 c old
    · rw [List.mem_singleton.mp fresh]
      simp [State.closes, newCarrier]

end

/-- A promotion where no head waits, whatever its lookup finds. -/
theorem State.offered_promote (wait : s.cache.wait = []) : ∃ (u : State) (x : Option Binding) (r : Bool),
    (s.offered h a).promote h = u.required h a r ∧ (s.offered h a).BindsOnly u ∧
      ∀ j, u.ctxAt j = if j = h then ((s.offered h a).ctxAt h).seatedWith a x else (s.offered h a).ctxAt j := by
  have current := s.offered_current h a
  cases found : ((s.offered h a).arming h a).tryBind h a.classId a.refresh with
  | none =>
    obtain ⟨promoted, binds, ctx⟩ := State.promote_starved (s := s.offered h a) wait current found
    exact ⟨_, _, _, promoted, binds, ctx⟩
  | some b =>
    obtain ⟨x, own⟩ := (State.tryBind_boundFrom found).ctx
    have bound : (b.state.ctxAt h).binding = some x := by rw [own, if_pos rfl]
    obtain ⟨promoted, binds, ctx⟩ := State.promote_bound (s := s.offered h a) wait current found bound
    exact ⟨_, _, _, promoted, binds, ctx⟩

/-- The general queue once a victim has been made FETCHING: the CLASSFETCH is placed where it can be sent (R31, R158). -/
theorem State.fetchInto_general (s : State) (h : Head) (c : ClassId) (v : EntryIx) :
    (s.fetchInto h c v).ring.general =
      s.ring.general ++ if s.ccReachable then [s.ccFrame 0x06 (be16 c.toNat)] else [] := by
  have reachable : (s.fetched h c v).ccReachable = s.ccReachable := rfl
  rw [State.fetchInto_eq, State.offerFetch, reachable]
  split
  · rfl
  · exact (List.append_nil _).symm

theorem State.tryBind_victim {c : ClassId} {r : Bool} {v : EntryIx}
    (miss : ∀ e, (s.entryAt e).body.matchesId c = false) (victim : s.victim = some v) :
    s.tryBind h c r = some { state := s.fetchInto h c v, resident := false } := by
  rw [State.tryBind_miss (State.matchEntry_none_iff.mpr miss), State.bindMiss, victim]
  rfl

theorem State.tryBind_starved {c : ClassId} {r : Bool} (miss : ∀ e, (s.entryAt e).body.matchesId c = false)
    (victim : s.victim = none) : s.tryBind h c r = none := by
  rw [State.tryBind_miss (State.matchEntry_none_iff.mpr miss), State.bindMiss, victim]
  rfl

/-- The entries once an idle entry has been refreshed: it is INVALID, and the victim is FETCHING (R29, R30). -/
theorem State.refreshed_entryAt (s : State) (h : Head) (c : ClassId) (e v f : EntryIx) :
    ((s.invalidate e).fetchInto h c v).entryAt f =
      if f = v then { body := .fetching c s.cache.fetchLimit, users := 1, recency := 0 }
      else if f = e then { body := .invalid, users := 0, recency := s.touchedAt v f }
      else { s.entryAt f with recency := s.touchedAt v f } := by
  have recency (g : EntryIx) : ((s.invalidate e).entryAt g).recency = (s.entryAt g).recency := by
    rw [State.invalidate_entryAt]
    split
    · next hg => rw [hg]
    · rfl
  have touched : (s.invalidate e).touchedAt v f = s.touchedAt v f := by simp only [State.touchedAt, recency]
  rw [State.fetchInto_entryAt, touched, State.invalidate_entryAt]
  split
  · rfl
  · split
    · rfl
    · rfl

/-- While a place is reserved, a CLASSFETCH is placed where the cell controller has an address and at most six frames
wait (R31, R158). -/
theorem State.reserving_reachable (s : State) :
    s.reserving.ccReachable = decide (s.ring.cc ≠ 0 ∧ s.ring.general.length < 7) := by
  have room : s.ring.general.length + 1 < Config.generalCapacity ↔ s.ring.general.length < 7 := by
    show _ < 8 ↔ _
    omega
  rw [Bool.eq_iff_iff, State.ccReachable, RingPort.hasPlace]
  simp only [Bool.and_eq_true, bne_iff_ne, decide_eq_true_eq]
  exact and_congr_right fun _ => room

/-! ### The promotion by the cases of its lookup (R28 to R32) -/

/-- What a promotion leaves of its head, the entries, the cache-wait list and the general queue. -/
structure State.Arms (s t : State) (h : Head) (a : Assignment) (x : Option Binding) (bound : Bool)
    (entry : EntryIx → Entry) (wait : List Waiter) (general : List Frame) : Prop where
  own : t.ctxAt h = { (s.ctxAt h).seatedWith a x with reqs := some (s.firstReqs h bound) }
  entries : ∀ f, t.entryAt f = entry f
  waits : t.cache.wait = wait
  queue : t.ring.general = general

section
variable (wait : s.cache.wait = []) (new : s.carrierAt a.carrier = none)
include wait new

/-- A lookup that binds arms the head with what it leaves. -/
theorem State.arms_of_bound {b : Bound} {x : Binding}
    (found : ((s.offered h a).arming h a).tryBind h a.classId a.refresh = some b)
    (bound : (b.state.ctxAt h).binding = some x) :
    s.Arms ((s.offered h a).promote h) h a (some x) b.resident b.state.entryAt [] b.state.ring.general := by
  obtain ⟨promoted, binds, ctx⟩ := State.promote_bound (s := s.offered h a) wait (s.offered_current h a) found bound
  rw [promoted]
  refine ⟨?_, fun f => rfl, ?_, rfl⟩
  · rw [State.offered_required_ctxAt binds ctx new, if_pos rfl]
  · rw [State.required_wait, (State.tryBind_boundFrom found).wait]
    exact wait

theorem State.arms_resident (one : s.OneMatch) {e : EntryIx} {id : ClassId} {d : ClassDesc}
    (body : (s.entryAt e).body = .resident id d) (hit : (s.entryAt e).body.matchesId a.classId = true)
    (keep : ¬ (a.refresh = true ∧ (s.entryAt e).users = 0)) :
    s.Arms ((s.offered h a).promote h) h a (some { entry := e, variant := variantOf a.classId id }) true (s.hitAt e) []
      s.ring.general := by
  have matched : ((s.offered h a).arming h a).matchEntry a.classId = some e := State.matchEntry_of_one one hit
  obtain ⟨own, entries, waits, queue⟩ :=
    State.arms_of_bound wait new (State.tryBind_resident matched body keep) (State.bindTo_binding _ _ _ _)
  exact ⟨own, fun f => (entries f).trans (State.bindTo_entryAt _ _ _ _ _), waits, queue⟩

theorem State.arms_fetching (one : s.OneMatch) {e : EntryIx} {n : Nat}
    (body : (s.entryAt e).body = .fetching a.classId n) :
    s.Arms ((s.offered h a).promote h) h a (some { entry := e, variant := 0 }) false (s.hitAt e) [] s.ring.general := by
  have hit : (s.entryAt e).body.matchesId a.classId = true := by rw [body]; exact EntryBody.fetching_matches.mpr rfl
  have matched : ((s.offered h a).arming h a).matchEntry a.classId = some e := State.matchEntry_of_one one hit
  obtain ⟨own, entries, waits, queue⟩ :=
    State.arms_of_bound wait new (State.tryBind_fetching matched body) (State.bindTo_binding _ _ _ _)
  exact ⟨own, fun f => (entries f).trans (State.bindTo_entryAt _ _ _ _ _), waits, queue⟩

theorem State.arms_victim (miss : ∀ e, (s.entryAt e).body.matchesId a.classId = false) {v : EntryIx}
    (victim : s.victim = some v) :
    s.Arms ((s.offered h a).promote h) h a (some { entry := v, variant := 0 }) false
      (fun f => if f = v then { body := .fetching a.classId s.cache.fetchLimit, users := 1, recency := 0 }
        else { s.entryAt f with recency := s.touchedAt v f }) []
      (s.ring.general ++ if s.ccReachable then [s.ccFrame 0x06 (be16 a.classId.toNat)] else []) := by
  have victim : ((s.offered h a).arming h a).victim = some v := (State.victim_congr fun _ => rfl).trans victim
  obtain ⟨own, entries, waits, queue⟩ :=
    State.arms_of_bound wait new (State.tryBind_victim miss victim) (State.fetchInto_binding _ _ _ _)
  exact ⟨own, fun f => (entries f).trans (State.fetchInto_entryAt _ _ _ _ _), waits,
    queue.trans (State.fetchInto_general _ _ _ _)⟩

theorem State.arms_starved (miss : ∀ e, (s.entryAt e).body.matchesId a.classId = false) (victim : s.victim = none) :
    s.Arms ((s.offered h a).promote h) h a (s.ctxAt h).binding false s.entryAt
      [{ head := h, classId := a.classId, refresh := a.refresh }] s.ring.general := by
  have victim : ((s.offered h a).arming h a).victim = none := (State.victim_congr fun _ => rfl).trans victim
  obtain ⟨promoted, binds, ctx⟩ := State.promote_starved (s := s.offered h a) wait (s.offered_current h a)
    (State.tryBind_starved miss victim)
  rw [promoted]
  refine ⟨?_, fun f => rfl, rfl, rfl⟩
  rw [State.offered_required_ctxAt binds ctx new, if_pos rfl, State.offered, State.modCtx_ctxAt_self]
  rfl

theorem State.arms_refreshed (one : s.OneMatch) {e : EntryIx} (refresh : a.refresh = true)
    (resident : (s.entryAt e).body.isResident = true) (hit : (s.entryAt e).body.matchesId a.classId = true)
    (users : (s.entryAt e).users = 0) :
    ∃ v, v ≤ e ∧ (v = e ∨ (s.entryAt v).body = .invalid) ∧ (∀ f, f < v → (s.entryAt f).body ≠ .invalid) ∧
      s.Arms ((s.offered h a).promote h) h a (some { entry := v, variant := 0 }) false
        (fun f => if f = v then { body := .fetching a.classId s.cache.fetchLimit, users := 1, recency := 0 }
          else if f = e then { body := .invalid, users := 0, recency := s.touchedAt v f }
          else { s.entryAt f with recency := s.touchedAt v f }) []
        (s.ring.general ++ if s.ccReachable then [s.ccFrame 0x06 (be16 a.classId.toNat)] else []) := by
  have matched : ((s.offered h a).arming h a).matchEntry a.classId = some e := State.matchEntry_of_one one hit
  obtain ⟨v, victim, le, place, first⟩ := ((s.offered h a).arming h a).invalidate_victim e
  have found : ((s.offered h a).arming h a).tryBind h a.classId a.refresh =
      some { state := (((s.offered h a).arming h a).invalidate e).fetchInto h a.classId v, resident := false } := by
    rw [State.tryBind_refresh matched resident refresh users, State.bindMiss, victim]
    rfl
  obtain ⟨own, entries, waits, queue⟩ := State.arms_of_bound wait new found (State.fetchInto_binding _ _ _ _)
  exact ⟨v, le, place, first, own, fun f => (entries f).trans (State.refreshed_entryAt _ _ _ _ _ _), waits,
    queue.trans (State.fetchInto_general _ _ _ _)⟩

end

/-! ### The command -/

/-- CARRIER for one IDLE head, from what its promotion leaves. -/
theorem exec_carrier_idle (takes : s.Takes src) (lawful : s.Lawful) (settled : s.Settled) (wait : s.cache.wait = [])
    {hd joint flags : Byte} {id : CarrierId} {cls : ClassId} (new : s.carrierAt id = none)
    (room : s.carriers.length < 2) (head : h.val = hd.toNat) (idle : (s.ctxAt h).state = .idle)
    (named : a = { carrier := id, joint, classId := cls, refresh := flags.getLsbD 0 }) :
    exec (.carrier src tag (carrierFrame id hd joint cls flags)) s =
      .next (((s.reserving.offered h a).promote h).placeReply (s.replyTo src tag [0x03, 0x00, 0x00, 0x01, 0x00])) := by
  subst named
  have sound := takes.sound_reserving lawful
  have free : (s.ctxAt h).current = none := by
    have shaped := (lawful.shaped h).1
    simp only [HeadCtx.Shaped, idle] at shaped
    exact shaped.1
  obtain ⟨u, x, r, promoted, binds, ctx⟩ := State.offered_promote (s := s.reserving) (h := h)
    (a := { carrier := id, joint, classId := cls, refresh := flags.getLsbD 0 }) wait
  have quiet := State.offered_settled (r := r) binds ctx new sound settled
  have silent : (u.required h { carrier := id, joint, classId := cls, refresh := flags.getLsbD 0 } r).notices.reported =
      {} := by
    show u.notices.reported = {}
    rw [binds.notices]
    exact takes.1.2.2.1
  have work := carrierWork_idle (s := s.reserving) (joint := joint) (flags := flags) (cls := cls) new room head idle free
  rw [promoted, State.startReady_of_none quiet.1, State.closeCarriers_of_none quiet.2] at work
  show execCarrier src tag _ s = _
  rw [execCarrier, takes_free takes.1.1, answered_taken takes, work, promoted]
  dsimp only [Answer.ok]
  rw [State.report_of_silent silent]
  rfl

end Sys2Proof.Machine

open Sys2Proof Sys2Proof.Machine

/-- Settles O47: the promotion by the cases of its lookup, each from the entries of the state before. -/
theorem promotionBinds : Obligations.PromotionBinds := by
  unfold Obligations.PromotionBinds
  intro s src tag hd joint flags id cls h takes lawful settled wait new room head idle a reqs armed back users1 fetches
    reply
  have runs := exec_carrier_idle (tag := tag) (a := a) takes lawful settled wait (joint := joint) (flags := flags)
    (cls := cls) new room head idle rfl
  obtain ⟨u, x, r, promoted, binds, ctx⟩ := State.offered_promote (s := s.reserving) (h := h) (a := a) wait
  have contexts := State.offered_required_ctxAt (s := s.reserving) (r := r) binds ctx new
  have asked : (if s.reserving.ccReachable then [s.reserving.ccFrame 0x06 (be16 cls.toNat)] else []) = fetches := by
    simp only [State.reserving_reachable, decide_eq_true_eq]
    rfl
  have leaves {x : Option Binding} {bound : Bool} {entry : EntryIx → Entry} {waiters : List Waiter} {general : List Frame}
      (arms : s.reserving.Arms ((s.reserving.offered h a).promote h) h a x bound entry waiters general) :
      ((s.reserving.offered h a).promote h).ctxAt h = armed x bound ∧
        (∀ f, ((s.reserving.offered h a).promote h).entryAt f = entry f) ∧
        ((s.reserving.offered h a).promote h).cache.wait = waiters ∧
        ((s.reserving.offered h a).promote h).ring.general ++ [reply] = general ++ [reply] :=
    ⟨arms.own, arms.entries, arms.waits, congrArg (· ++ [reply]) arms.queue⟩
  refine ⟨_, runs, ?_, fun j hj => ?_, fun e tg d body hit keep => ?_, fun e n body => ?_,
    fun miss => ⟨fun v victim => ?_, fun starved => ?_⟩, fun e refresh resident hit users => ?_⟩
  · rw [promoted]
    exact binds.carriers
  · rw [promoted]
    exact (contexts j).trans (if_neg hj)
  · exact leaves (State.arms_resident (s := s.reserving) (a := a) wait new lawful.oneMatch body hit keep)
  · exact leaves (State.arms_fetching (s := s.reserving) (a := a) wait new lawful.oneMatch body)
  · rw [← asked]
    exact leaves (State.arms_victim (s := s.reserving) (a := a) wait new miss victim)
  · have unbound : (s.reserving.ctxAt h).binding = none :=
      (lawful.sound.heads h).unbound (by rw [idle]; decide) (by rw [idle]; decide)
    have arms := State.arms_starved (s := s.reserving) (h := h) (a := a) wait new miss starved
    rw [unbound] at arms
    exact leaves arms
  · rw [← asked]
    obtain ⟨v, le, place, first, arms⟩ :=
      State.arms_refreshed (s := s.reserving) (h := h) (a := a) wait new lawful.oneMatch refresh resident hit users
    exact ⟨v, le, place, first, leaves arms⟩
end

section
/-! What an operation keeps of the Class Cache's laws on every state, lawful or not (R27, R39). -/

namespace Sys2Proof.Machine

variable {s t u : State}

/-- From `s` to `t` the recency positions stay a permutation (R27), and no class id comes to match more than one entry
(R39). -/
structure State.CacheKept (s t : State) : Prop where
  recency : s.RecencyPermutation → t.RecencyPermutation
  one : s.OneMatch → t.OneMatch

theorem State.CacheKept.trans (a : s.CacheKept t) (b : t.CacheKept u) : s.CacheKept u :=
  ⟨b.recency ∘ a.recency, b.one ∘ a.one⟩

/-- Entries that keep their positions and match no class id they did not match before. -/
theorem State.CacheKept.of_entries (recency : ∀ e, (t.entryAt e).recency = (s.entryAt e).recency)
    (hit : ∀ e c, (t.entryAt e).body.matchesId c = true → (s.entryAt e).body.matchesId c = true) : s.CacheKept t where
  recency h := by simpa only [State.RecencyPermutation, recency] using h
  one h c e f he hf := h c e f (hit e c he) (hit f c hf)

theorem State.CacheKept.of_entryAt (same : ∀ e, t.entryAt e = s.entryAt e) : s.CacheKept t :=
  .of_entries (fun e => by rw [same]) fun e c h => by rwa [same] at h

theorem State.CacheKept.of_cache (same : t.cache = s.cache) : s.CacheKept t :=
  .of_entryAt fun e => by rw [State.entryAt, same]; rfl

theorem State.CacheKept.refl (s : State) : s.CacheKept s := .of_cache rfl

/-- An operation on other blocks after one that keeps the laws. -/
theorem State.CacheKept.after (a : s.CacheKept t) (same : u.cache = t.cache) : s.CacheKept u := a.trans (.of_cache same)

/-- An operation on other blocks before one that keeps the laws. -/
theorem State.CacheKept.before (a : t.CacheKept u) (same : t.cache = s.cache) : s.CacheKept u :=
  (State.CacheKept.of_cache same).trans a

/-! ### Entries, bindings and lookups (R27 to R34) -/

theorem State.cacheKept_touch (s : State) (e : EntryIx) : s.CacheKept (s.touch e) where
  recency h := by
    simp only [State.RecencyPermutation, State.touch_entryAt]
    exact State.recency_touchedAt h e
  one h := by simpa only [State.OneMatch, State.touch_entryAt] using h

/-- A change of the user count alone. -/
theorem State.cacheKept_users (s : State) (e : EntryIx) (f : Nat → Nat) :
    s.CacheKept (s.modEntry e fun x => { x with users := f x.users }) := by
  have entry (g : EntryIx) := s.modEntry_entryAt e g fun x => { x with users := f x.users }
  refine .of_entries (fun g => ?_) fun g c h => ?_
  · rw [entry]
    split
    · next hg => rw [hg]
    · rfl
  · rw [entry] at h
    split at h
    · next hg => rwa [hg]
    · exact h

theorem State.invalidate_matchesId {e f : EntryIx} {c : ClassId}
    (h : ((s.invalidate e).entryAt f).body.matchesId c = true) : f ≠ e ∧ (s.entryAt f).body.matchesId c = true := by
  rw [State.invalidate_entryAt] at h
  split at h
  · cases h
  · next hf => exact ⟨hf, h⟩

theorem State.cacheKept_invalidate (s : State) (e : EntryIx) : s.CacheKept (s.invalidate e) := by
  refine .of_entries (fun f => ?_) fun f c h => (State.invalidate_matchesId h).2
  rw [State.invalidate_entryAt]
  split
  · next hf => rw [hf]
  · rfl

theorem State.cacheKept_bindTo (s : State) (h : Head) (e : EntryIx) (v : Nat) : s.CacheKept (s.bindTo h e v) :=
  ((State.cacheKept_users _ e (· + 1)).before (State.modCtx_cache ..)).trans (State.cacheKept_touch _ e)

theorem State.recency_fetchInto (h : Head) (c : ClassId) (v : EntryIx) (hs : s.RecencyPermutation) :
    (s.fetchInto h c v).RecencyPermutation := by
  have position (f : EntryIx) : ((s.fetchInto h c v).entryAt f).recency = s.touchedAt v f := by
    rw [State.fetchInto_entryAt]
    split
    · next hf => rw [hf, State.touchedAt, if_pos rfl]
    · rfl
  simp only [State.RecencyPermutation, position]
  exact State.recency_touchedAt hs v

/-- The fetch of a class id that no entry matches. -/
theorem State.cacheKept_fetchInto (h : Head) {c : ClassId} (miss : ∀ e, (s.entryAt e).body.matchesId c = false)
    (v : EntryIx) : s.CacheKept (s.fetchInto h c v) where
  recency := State.recency_fetchInto h c v
  one hs c' e f he hf := by
    have hit {g : EntryIx} (hg : ((s.fetchInto h c v).entryAt g).body.matchesId c' = true) :
        (g = v ∧ c' = c) ∨ ((s.entryAt g).body.matchesId c' = true ∧ c' ≠ c) := by
      rw [State.fetchInto_entryAt] at hg
      split at hg
      · next hv => exact .inl ⟨hv, EntryBody.fetching_matches.mp hg⟩
      · refine .inr ⟨hg, ?_⟩
        rintro rfl
        rw [miss g] at hg
        cases hg
    rcases hit he with ⟨rfl, hc⟩ | ⟨he', hc⟩ <;> rcases hit hf with ⟨rfl, hc'⟩ | ⟨hf', hc'⟩
    · rfl
    · exact absurd hc hc'
    · exact absurd hc' hc
    · exact hs c' e f he' hf'

/-- The only match of a class id has been made INVALID, so that none is left. -/
theorem State.OneMatch.miss_invalidate (one : s.OneMatch) {c : ClassId} {e : EntryIx}
    (hit : (s.entryAt e).body.matchesId c = true) (f : EntryIx) :
    ((s.invalidate e).entryAt f).body.matchesId c = false := by
  rw [← Bool.not_eq_true]
  intro h
  obtain ⟨hf, hm⟩ := State.invalidate_matchesId h
  exact hf (one c f e hm hit)

/-- A lookup that binds. -/
theorem State.cacheKept_tryBind {h : Head} {c : ClassId} {refresh : Bool} {b : Bound}
    (hb : s.tryBind h c refresh = some b) : s.CacheKept b.state := by
  have found := s.lookup h c refresh
  rw [hb] at found
  cases found with
  | resident => exact s.cacheKept_bindTo h _ _
  | fetching => exact s.cacheKept_bindTo h _ _
  | refreshed _ _ hit _ _ =>
    have dropped := s.cacheKept_invalidate
    exact ⟨fun hs => State.recency_fetchInto h c _ ((dropped _).recency hs), fun hs =>
      (State.cacheKept_fetchInto h (hs.miss_invalidate hit) _).one ((dropped _).one hs)⟩
  | missed miss _ => exact State.cacheKept_fetchInto h miss _

theorem State.cacheKept_bindRequest (s : State) (h : Head) (c : ClassId) (refresh : Bool) :
    s.CacheKept (s.bindRequest h c refresh).state := by
  unfold State.bindRequest
  split
  · next hb => exact State.cacheKept_tryBind hb
  · exact .of_entryAt fun _ => rfl

theorem cacheKept_retryWaiters (ws : List Waiter) (s : State) : s.CacheKept (retryWaiters ws s) := by
  induction ws generalizing s with
  | nil => exact .of_entryAt fun _ => rfl
  | cons w ws ih =>
    unfold retryWaiters
    split
    · next hb => exact (State.cacheKept_tryBind hb).trans ((ih _).before rfl)
    · exact .of_entryAt fun _ => rfl

theorem State.cacheKept_runRetry (s : State) : s.CacheKept s.runRetry := by
  unfold State.runRetry
  split
  · exact (cacheKept_retryWaiters _ s).trans (.of_entryAt fun _ => rfl)
  · exact .refl s

theorem State.cacheKept_unbind (s : State) (h : Head) : s.CacheKept (s.unbind h) :=
  .of_entries (fun e => by rw [State.unbind_entryAt, State.freed_entryAt]) fun e c hc => by
    rwa [State.unbind_entryAt, State.freed_entryAt] at hc

/-! ### The work of a head (R50, R71 to R81) -/

theorem State.cacheKept_promote (s : State) (h : Head) : s.CacheKept (s.promote h) := by
  unfold State.promote
  split
  · exact .refl s
  · exact ((State.cacheKept_bindRequest _ _ _ _).before (State.modCtx_cache ..)).trans
      ((State.cacheKept_runRetry _).before (State.modCtx_cache ..))

theorem State.cacheKept_nextWork (s : State) (h : Head) : s.CacheKept (s.nextWork h) := by
  unfold State.nextWork
  split
  · exact s.cacheKept_promote h
  · exact (State.cacheKept_runRetry _).before rfl

theorem State.cacheKept_settleHead (s : State) (h : Head) (o : CycleOutcome) (entered : Bool) :
    s.CacheKept (s.settleHead h o entered) := by
  have freed := s.cacheKept_unbind h
  unfold State.settleHead
  split
  · exact freed.trans ((State.cacheKept_runRetry _).before rfl)
  · dsimp only
    split
    · exact freed.trans ((State.cacheKept_nextWork _ h).before rfl)
    · exact freed.trans ((State.cacheKept_runRetry _).before rfl)

theorem State.cacheKept_terminate (s : State) (h : Head) (e : Ending) : s.CacheKept (s.terminate h e) :=
  (State.cacheKept_settleHead _ h _ _).before
    ((State.offerJoint_cache _ h _).trans (s.stop_cache h e.cancel))

theorem State.cacheKept_finish {p : Progress} (same : p.state.cache = s.cache) (h : Head) : s.CacheKept (p.finish h) := by
  unfold Progress.finish
  split
  · exact (State.cacheKept_terminate _ h _).before same
  · exact .of_cache same

theorem State.startCycle_cache (s : State) (h : Head) (d : ClassDesc) : (s.startCycle h d).state.cache = s.cache :=
  (s.startCycle_stepsOn h d).cache

theorem cacheKept_startLoop (n : Nat) (s : State) : s.CacheKept (startLoop n s) := by
  induction n generalizing s with
  | zero => exact .refl s
  | succ n ih =>
    unfold startLoop
    split
    · exact .refl s
    · next h d _ => exact (State.cacheKept_finish (s.startCycle_cache h d) h).trans (ih _)

theorem State.cacheKept_startReady (s : State) : s.CacheKept s.startReady := cacheKept_startLoop 32 s

/-- The starts an operation brings, with the closing test after them. -/
theorem State.cacheKept_startsDone (s : State) : s.CacheKept s.startReady.closeCarriers :=
  s.cacheKept_startReady.after (State.closeCarriers_cache _)

theorem State.cacheKept_conclude (s : State) : s.CacheKept s.conclude :=
  (State.cacheKept_startsDone _).before (State.closeCarriers_cache _)

theorem State.cacheKept_concludeProgress {p : Progress} (same : p.state.cache = s.cache) (h : Head) :
    s.CacheKept (p.conclude h) := by
  unfold Progress.conclude
  split
  · exact ((State.cacheKept_terminate _ h _).before same).trans (State.cacheKept_conclude _)
  · exact .of_cache same

theorem State.cacheKept_discardCurrent (s : State) (h : Head) : s.CacheKept (s.discardCurrent h) := by
  have freed : s.CacheKept ((s.unbind h).leaveWait h) := (s.cacheKept_unbind h).trans (.of_entryAt fun _ => rfl)
  unfold State.discardCurrent
  dsimp only
  split <;> exact freed.after rfl

theorem State.discardWaiting_cache (s : State) (h : Head) : (s.discardWaiting h).cache = s.cache := by
  unfold State.discardWaiting
  split <;> rfl

theorem State.cacheKept_driveFault (s : State) (h : Head) : s.CacheKept (s.driveFault h) := by
  unfold State.driveFault
  split
  · exact .of_cache rfl
  · exact .of_cache rfl
  · exact (s.cacheKept_discardCurrent h).trans ((State.cacheKept_runRetry _).before rfl)
  · exact s.cacheKept_terminate h _
  · exact .refl s
  · exact .refl s

theorem cacheKept_faultUnavailable (hs : List Head) (s : State) : s.CacheKept (faultUnavailable hs s) := by
  induction hs generalizing s with
  | nil => exact .refl s
  | cons h hs ih => exact (s.cacheKept_discardCurrent h).trans ((ih _).before rfl)

theorem State.cacheKept_expireFetch (s : State) (e : EntryIx) : s.CacheKept (s.expireFetch e) := by
  have lost : s.CacheKept ((dropBindings (s.boundHeads e) s).invalidate e) :=
    (State.cacheKept_invalidate _ e).before (dropBindings_cache _ s)
  have faulted := (lost.trans (cacheKept_faultUnavailable (s.boundHeads e) _)).after (State.closeCarriers_cache _)
  exact (faulted.trans (State.cacheKept_runRetry _)).trans (State.cacheKept_startsDone _)

end Sys2Proof.Machine
end

section
/-! What each command keeps of the Class Cache's laws on every state (R27, R39). -/

namespace Sys2Proof.Machine

variable {s t u : State}

/-! ### Counters and reports (R165, R169) -/

theorem State.raise_cache (s : State) (get : Counters → Nat) (set : Counters → Nat → Counters) :
    (s.raise get set).cache = s.cache := by
  unfold State.raise
  dsimp only
  split <;> rfl

theorem State.raiseForeign_cache (s : State) : s.raiseForeign.cache = s.cache := s.raise_cache _ _

theorem State.offerAttention_cache (s : State) (lost : Causes) : (s.offerAttention lost).cache = s.cache := by
  unfold State.offerAttention
  split <;> rfl

theorem State.report_cache (s : State) : s.report.cache = s.cache := by
  unfold State.report
  dsimp only
  split
  · exact State.offerAttention_cache _ _
  · rfl

theorem State.announcePending_cache (s : State) : s.announcePending.cache = s.cache := by
  unfold State.announcePending
  split
  · exact s.offerAttention_cache _
  · rfl

theorem State.offerForward_cache (s : State) (bytes : List Byte) : (s.offerForward bytes).cache = s.cache := by
  unfold State.offerForward
  split
  · rfl
  · exact s.raise_cache _ _

/-! ### CLASSLOAD (R36 to R39) -/

/-- A load makes the entry INVALID: it shares an id with the load and is not RESIDENT with users (R39). -/
def Entry.yields (x : Entry) (d : ClassDesc) : Bool :=
  x.body.overlaps (clearLow d.classId d.span) d.span && !(x.body.isResident && 0 < x.users)

theorem Entry.yields_of_invalid {x : Entry} (hx : x.body = .invalid) (d : ClassDesc) : x.yields d = false := by
  rw [Entry.yields, hx]
  rfl

/-- What the settlement of entries beside a target `e` leaves: each of them as it was, or INVALID (R39). -/
structure State.Settling (e : EntryIx) (s t : State) : Prop where
  recency : ∀ f, (t.entryAt f).recency = (s.entryAt f).recency
  target : (t.entryAt e).body = (s.entryAt e).body
  others : ∀ f, f ≠ e → t.entryAt f = s.entryAt f ∨ (t.entryAt f).body = .invalid

theorem State.Settling.refl (e : EntryIx) (s : State) : State.Settling e s s :=
  ⟨fun _ => rfl, rfl, fun _ _ => .inl rfl⟩

theorem State.Settling.trans {e : EntryIx} (a : State.Settling e s t) (b : State.Settling e t u) : State.Settling e s u where
  recency f := (b.recency f).trans (a.recency f)
  target := b.target.trans a.target
  others f hf := by
    rcases b.others f hf with same | gone
    · rw [same]; exact a.others f hf
    · exact .inr gone

theorem State.settling_invalidate {e g : EntryIx} (hg : g ≠ e) (s : State) : State.Settling e s (s.invalidate g) where
  recency f := by
    rw [State.invalidate_entryAt]
    split
    · next hf => rw [hf]
    · rfl
  target := by rw [State.invalidate_entryAt, if_neg (Ne.symm hg)]
  others f hf := by
    rw [State.invalidate_entryAt]
    split
    · exact .inr rfl
    · exact .inl rfl

theorem State.settling_joined (e : EntryIx) (tag : ClassId) (hs : List Head) (s : State) :
    State.Settling e s ((moveHeads e tag hs s).modEntry e fun x => { x with users := x.users + hs.length }) := by
  have entry (f : EntryIx) := (moveHeads e tag hs s).modEntry_entryAt e f fun x => { x with users := x.users + hs.length }
  simp only [moveHeads_entryAt] at entry
  refine ⟨fun f => ?_, by rw [entry, if_pos rfl], fun f hf => .inl (by rw [entry, if_neg hf])⟩
  rw [entry]
  split
  · next hf => rw [hf]
  · rfl

theorem State.settling_settleOverlap (e : EntryIx) (d : ClassDesc) (g : EntryIx) (s : State) :
    State.Settling e s (State.settleOverlap e d g s) := by
  unfold State.settleOverlap
  dsimp only
  split
  · next met =>
    have hg : g ≠ e := by
      rw [Bool.and_eq_true, decide_eq_true_eq] at met
      exact met.1
    split
    · exact (State.settling_joined e _ _ s).trans (State.settling_invalidate hg _)
    · split
      · exact State.settling_invalidate hg s
      · exact .refl e s
    · exact .refl e s
  · exact .refl e s

/-- Once an entry beside the target has been settled, the load has nothing more to make of it. -/
theorem State.settleOverlap_yields {e g : EntryIx} (hg : g ≠ e) (d : ClassDesc) (s : State) :
    ((State.settleOverlap e d g s).entryAt g).yields d = false := by
  have gone (u : State) : ((u.invalidate g).entryAt g).yields d = false :=
    Entry.yields_of_invalid (by rw [State.invalidate_entryAt, if_pos rfl]) d
  unfold State.settleOverlap
  dsimp only
  split
  · cases hb : (s.entryAt g).body with
    | invalid => exact Entry.yields_of_invalid hb d
    | fetching tag n => exact gone _
    | resident tag d' =>
      dsimp only
      split
      · exact gone s
      · next used => simp [Entry.yields, hb, EntryBody.isResident, EntryBody.desc?, Nat.pos_of_ne_zero used]
  · next apart =>
    have : (s.entryAt g).body.overlaps (clearLow d.classId d.span) d.span = false := by simpa [hg] using apart
    rw [Entry.yields, this, Bool.false_and]

theorem settling_settleOverlaps (e : EntryIx) (d : ClassDesc) (es : List EntryIx) (s : State) :
    State.Settling e s (settleOverlaps e d es s) := by
  induction es generalizing s with
  | nil => exact .refl e s
  | cons g es ih => exact (State.settling_settleOverlap e d g s).trans (ih _)

theorem settleOverlaps_yields {e : EntryIx} (d : ClassDesc) {f : EntryIx} (hf : f ≠ e) (es : List EntryIx) (s : State)
    (hm : f ∈ es) : ((settleOverlaps e d es s).entryAt f).yields d = false := by
  induction es generalizing s with
  | nil => cases hm
  | cons g es ih =>
    rcases List.mem_cons.mp hm with rfl | hm
    · rcases (settling_settleOverlaps e d es (State.settleOverlap e d f s)).others f hf with same | gone
      · rw [settleOverlaps, same]
        exact State.settleOverlap_yields hf d s
      · exact Entry.yields_of_invalid gone d
    · exact ih _ hm

/-- The entries once the target has been filled (R38). -/
theorem State.fill_entryAt (s : State) (e : EntryIx) (d : ClassDesc) (f : EntryIx) : (s.fill e d).entryAt f =
    if f = e then { s.entryAt e with body := .resident (clearLow d.classId d.span) d, recency := 0 }
    else { s.entryAt f with recency := s.touchedAt e f } := by
  unfold State.fill
  dsimp only
  rw [moveHeads_entryAt, State.touch_entryAt]
  simp only [State.touchedAt, State.modEntry_entryAt]
  by_cases hf : f = e
  · simp [hf]
  · simp [hf]

/-- A load whose matching names a target leaves no RESIDENT entry with users beside it (R37). -/
theorem State.matchLoad_clear {d : ClassDesc} {e : EntryIx} (target : s.matchLoad d = .target e) :
    s.overlapInUse e (clearLow d.classId d.span) d.span = none := by
  unfold State.matchLoad at target
  split at target
  · split at target
    · cases target
    · cases target; assumption
  · next no => exact absurd target (no e)

theorem State.overlapInUse_none {e f : EntryIx} {d : ClassDesc}
    (clear : s.overlapInUse e (clearLow d.classId d.span) d.span = none) (hf : f ≠ e)
    (shares : (s.entryAt f).body.overlaps (clearLow d.classId d.span) d.span = true) : (s.entryAt f).yields d = true := by
  have := List.find?_eq_none.mp clear f (mem_allEntries f)
  simp only [hf, shares, ne_eq, not_false_eq_true, decide_true, Bool.true_and, Bool.and_true] at this
  simpa [Entry.yields, shares, Bool.eq_false_or_eq_true, imp_iff_not_or] using this

/-- The fill and the settlement of a load (R38, R39). -/
theorem State.cacheKept_filled {d : ClassDesc} {e : EntryIx}
    (clear : s.overlapInUse e (clearLow d.classId d.span) d.span = none) :
    s.CacheKept (settleOverlaps e d allEntries (s.fill e d)) := by
  have settling := settling_settleOverlaps e d allEntries (s.fill e d)
  have settled {f : EntryIx} (hf : f ≠ e) := settleOverlaps_yields d hf allEntries (s.fill e d) (mem_allEntries f)
  generalize settleOverlaps e d allEntries (s.fill e d) = v at settling settled
  have filled {f : EntryIx} (hf : f ≠ e) : (s.fill e d).entryAt f = { s.entryAt f with recency := s.touchedAt e f } := by
    rw [State.fill_entryAt, if_neg hf]
  refine ⟨fun hs => ?_, fun hs c f g hfc hgc => ?_⟩
  · have position (f : EntryIx) : (v.entryAt f).recency = s.touchedAt e f := by
      rw [settling.recency, State.fill_entryAt]
      split
      · next hf => rw [hf, State.touchedAt, if_pos rfl]
      · rfl
    simp only [State.RecencyPermutation, position]
    exact State.recency_touchedAt hs e
  · have own {f : EntryIx} (hf : f = e) (hc : (v.entryAt f).body.matchesId c = true) :
        clearLow c d.span = clearLow d.classId d.span := by
      rw [hf, settling.target, State.fill_entryAt, if_pos rfl] at hc
      simpa [EntryBody.matchesId, EntryBody.cover] using hc
    have other {f : EntryIx} (hf : f ≠ e) (hc : (v.entryAt f).body.matchesId c = true) :
        (s.entryAt f).body.matchesId c = true ∧ clearLow c d.span ≠ clearLow d.classId d.span := by
      rcases settling.others f hf with same | gone
      · have yields := settled hf
        rw [same, filled hf] at hc yields
        refine ⟨hc, fun shares => ?_⟩
        have := State.overlapInUse_none clear hf (EntryBody.overlaps_of_matches hc shares)
        exact Bool.false_ne_true (yields.symm.trans this)
      · rw [gone] at hc
        cases hc
    by_cases hf : f = e <;> by_cases hg : g = e
    · rw [hf, hg]
    · exact absurd (own hf hfc) (other hg hgc).2
    · exact absurd (own hg hgc) (other hf hfc).2
    · exact hs c f g (other hf hfc).1 (other hg hgc).1

theorem State.cacheKept_applyLoad {d : ClassDesc} {e : EntryIx} (target : s.matchLoad d = .target e) :
    s.CacheKept (s.applyLoad e d) := by
  have filled := State.cacheKept_filled (State.matchLoad_clear target)
  have met (hs : List Head) (u : State) : u.CacheKept (meetBound hs u).oweRetry :=
    (State.CacheKept.of_cache (meetBound_cache hs u)).trans (.of_entryAt fun _ => rfl)
  exact (filled.trans (met _ _)).trans (State.cacheKept_runRetry _)

theorem cacheKept_classloadWork (p : List Byte) (s : State) : s.CacheKept (classloadWork p s).state := by
  unfold classloadWork
  split
  · exact .refl s
  · split
    · next target => exact (State.cacheKept_applyLoad target).trans (State.cacheKept_startsDone _)
    · exact .refl s
    · exact .refl s

/-! ### The other commands of the cache and of the carriers (R42, R46 to R57) -/

theorem cacheKept_invalidateAll (es : List EntryIx) (s : State) : s.CacheKept (invalidateAll es s) := by
  induction es generalizing s with
  | nil => exact .refl s
  | cons e es ih => exact (s.cacheKept_invalidate e).trans (ih _)

theorem State.cacheKept_flush (s : State) (es : List EntryIx) : s.CacheKept (s.flush es).state :=
  ((cacheKept_invalidateAll _ s).trans (State.cacheKept_runRetry _)).trans (State.cacheKept_startsDone _)

theorem cacheKept_flushClassWork (p : List Byte) (s : State) : s.CacheKept (flushClassWork p s).state := by
  unfold flushClassWork
  split
  · exact .refl s
  · split
    · exact s.cacheKept_flush _
    · exact s.cacheKept_flush _
    · exact .refl s

theorem State.cacheKept_placeAssignment (s : State) (h : Head) (a : Assignment) : s.CacheKept (s.placeAssignment h a) := by
  unfold State.placeAssignment
  split
  · exact (State.cacheKept_promote _ h).before (State.modCtx_cache ..)
  · split <;> exact .of_cache rfl

theorem cacheKept_placeAssignments (as : List (Head × Assignment)) (s : State) :
    s.CacheKept (placeAssignments as s) := by
  induction as generalizing s with
  | nil => exact .refl s
  | cons a as ih => exact (s.cacheKept_placeAssignment a.1 a.2).trans (ih _)

theorem State.cacheKept_takeCarrier (s : State) (id : CarrierId) (taken : List (Head × Assignment)) :
    s.CacheKept (s.takeCarrier id taken) := by
  unfold State.takeCarrier
  split
  · exact .refl s
  · refine .trans ?_ (State.cacheKept_startsDone _)
    exact (cacheKept_placeAssignments taken _).before rfl

theorem cacheKept_carrierWork (p : List Byte) (s : State) : s.CacheKept (carrierWork p s).state := by
  unfold carrierWork
  dsimp only
  split
  · exact .refl s
  · split
    · exact .refl s
    · split
      · exact .refl s
      · exact s.cacheKept_takeCarrier _ _

theorem State.cacheKept_releaseCarrier (s : State) (id : CarrierId) : s.CacheKept (s.releaseCarrier id) := by
  unfold State.releaseCarrier State.startsDone
  exact (State.cacheKept_startsDone _).before rfl

theorem cacheKept_releaseWork (p : List Byte) (s : State) : s.CacheKept (releaseWork p s).state := by
  unfold releaseWork
  split
  · exact .refl s
  · split
    · exact .refl s
    · split
      · exact .refl s
      · rw [Answer.ok_state]
        exact s.cacheKept_releaseCarrier _

theorem cacheKept_endCycles (o : CycleOutcome) (hs : List Head) (s : State) : s.CacheKept (endCycles o hs s) := by
  induction hs generalizing s with
  | nil => exact .refl s
  | cons h hs ih => exact ((s.cacheKept_terminate h _).trans (State.cacheKept_startReady _)).trans (ih _)

theorem State.cacheKept_purgeOk (s : State) (id : CarrierId) : s.CacheKept (s.purgeOk id) := by
  unfold State.purgeOk
  split
  · exact (State.cacheKept_startsDone _).before rfl
  · exact .of_cache s.raiseForeign_cache

theorem State.cacheKept_purgeLost (s : State) (id : CarrierId) : s.CacheKept (s.purgeLost id) := by
  unfold State.purgeLost
  split
  · exact ((cacheKept_endCycles _ _ _).after (State.closeCarriers_cache _)).before rfl
  · exact .of_cache s.raiseForeign_cache

theorem State.cacheKept_openInterlock (s : State) : s.CacheKept s.openInterlock :=
  ((cacheKept_endCycles _ _ _).after (State.closeCarriers_cache _)).before rfl

theorem State.cacheKept_closeInterlock (s : State) : s.CacheKept s.closeInterlock :=
  (State.cacheKept_startsDone _).before rfl

/-! ### The commands of the heads (R65, R82 to R86, R91 to R103) -/

theorem setHeadWork_cache (p : List Byte) (s : State) : (setHeadWork p s).state.cache = s.cache := by
  unfold setHeadWork
  dsimp only
  split
  · rfl
  · split
    · split
      · rfl
      · split <;> rfl
    · rfl

theorem State.cacheKept_haltArming (s : State) (h : Head) (drop : Bool) : s.CacheKept (s.haltArming h drop) := by
  have discarded := s.cacheKept_discardCurrent h
  unfold State.haltArming
  dsimp only
  split
  · exact (discarded.after (State.discardWaiting_cache _ h)).trans (State.cacheKept_nextWork _ h)
  · exact discarded.trans (State.cacheKept_nextWork _ h)

theorem State.cacheKept_haltHead (s : State) (h : Head) (drop : Bool) : s.CacheKept (s.haltHead h drop) := by
  unfold State.haltHead
  split
  · exact s.cacheKept_terminate h _
  · exact s.cacheKept_haltArming h drop
  · exact .refl s
  · exact .refl s

theorem State.cacheKept_haltOne (s : State) (h : Head) (drop : Bool) : s.CacheKept (s.haltOne h drop) := by
  unfold State.haltOne
  split
  · exact (s.cacheKept_haltHead h drop).trans (State.cacheKept_conclude _)
  · exact (s.cacheKept_haltHead h drop).trans (State.cacheKept_conclude _)
  · exact .refl s
  · exact .refl s

theorem cacheKept_haltHeads (drop : Bool) (hs : List Head) (s : State) : s.CacheKept (haltHeads drop hs s).state := by
  induction hs generalizing s with
  | nil => exact .refl s
  | cons h hs ih => exact ((s.cacheKept_haltHead h drop).trans (State.cacheKept_startReady _)).trans (ih _)

theorem cacheKept_haltWork (p : List Byte) (s : State) : s.CacheKept (haltWork p s).state := by
  unfold haltWork
  dsimp only
  split
  · exact .refl s
  · split
    · exact s.cacheKept_haltOne _ _
    · split
      · exact (cacheKept_haltHeads _ _ s).after (State.closeCarriers_cache _)
      · exact .refl s

theorem State.cacheKept_clearFault (s : State) (h : Head) : s.CacheKept (s.clearFault h) := by
  unfold State.clearFault
  dsimp only
  split
  · exact (State.cacheKept_promote _ h).before rfl
  · exact .of_cache rfl

theorem cacheKept_clearFaultWork (p : List Byte) (s : State) : s.CacheKept (clearFaultWork p s).state := by
  unfold clearFaultWork
  split
  · exact .refl s
  · split
    · dsimp only
      split
      · exact (s.cacheKept_clearFault _).trans (State.cacheKept_startsDone _)
      · exact .refl s
    · exact .refl s

theorem State.takeEndEvent_cache (s : State) (h : Head) : (s.takeEndEvent h).state.cache = s.cache :=
  (endEvent_stepsOn _ h s).cache

theorem State.takeSample_cache (s : State) (src : Byte) (p : List Byte) : (s.takeSample src p).cache = s.cache := by
  unfold State.takeSample State.acceptSample
  dsimp only
  split
  · split
    · rfl
    · split <;> rfl
  · exact s.raiseForeign_cache

theorem State.accountEnergy_cache (s : State) (h : Head) (n : Nat) : (s.accountEnergy h n).cache = s.cache := by
  unfold State.accountEnergy
  split <;> rfl

theorem State.cacheKept_takeFeedCounter (s : State) (h : Head) (n : Byte) : s.CacheKept (s.takeFeedCounter h n) := by
  unfold State.takeFeedCounter
  dsimp only
  split
  · split
    · exact .of_cache rfl
    · split
      · exact .of_cache rfl
      · exact State.cacheKept_concludeProgress ((State.takeEndEvent_cache _ h).trans (State.modIntake_cache _ h _)) h
  · exact .of_cache rfl

theorem State.cacheKept_acceptDstat (s : State) (h : Head) (p : List Byte) : s.CacheKept (s.acceptDstat h p) := by
  unfold State.acceptDstat
  dsimp only
  split
  · exact (((State.cacheKept_driveFault _ h).before (s.accountEnergy_cache h _)).trans
      (State.cacheKept_takeFeedCounter _ h _)).trans (State.cacheKept_conclude _)
  · exact (State.cacheKept_takeFeedCounter _ h _).before (s.accountEnergy_cache h _)

theorem State.cacheKept_takeDstat (s : State) (src : Byte) (p : List Byte) : s.CacheKept (s.takeDstat src p) := by
  unfold State.takeDstat
  split
  · exact s.cacheKept_acceptDstat _ p
  · exact .of_cache s.raiseForeign_cache

end Sys2Proof.Machine
end

section
/-! What the services, the records and the requests of the station keep of the Class Cache's laws, and each step (R27, R39). -/

namespace Sys2Proof.Machine

variable {s t u : State}

/-! ### Services (R97, R104 to R117) -/

theorem claimWalk_cache (h : Head) (js : List Head) (short : Nat) (s : State) :
    (claimWalk h js short s).cache = s.cache := by
  induction js generalizing short s with
  | nil => rfl
  | cons j js ih =>
    unfold claimWalk
    split
    · rfl
    · exact ih _ _

theorem State.claim_cache (s : State) (h : Head) (short : Nat) : (s.claim h short).cache = s.cache := by
  unfold State.claim
  split
  · split
    · rfl
    · exact claimWalk_cache h _ short s
  · rfl

theorem State.driveHead_cache (s : State) (h : Head) (k : Kind) (w : StepWord) (d : ClassDesc) (tm : Nat) :
    (s.driveHead h k w d tm).cache = s.cache := by
  unfold State.driveHead State.grantService
  exact State.claim_cache _ h _

theorem State.serveStep_cache (s : State) (h : Head) (k : Kind) (w : StepWord) (d : ClassDesc) (tm : Nat) :
    (s.serveStep h k w d tm).state.cache = s.cache := by
  unfold State.serveStep
  dsimp only
  split
  · rfl
  · split
    · exact (State.takeEndEvent_cache _ h).trans (State.driveHead_cache _ h k w d tm)
    · exact State.driveHead_cache _ h k w d tm

theorem State.cacheKept_serveHead (s : State) (h : Head) (tm : Nat) : s.CacheKept (s.serveHead h tm) := by
  unfold State.serveHead
  split
  · split
    · exact State.cacheKept_concludeProgress (s.serveStep_cache h _ _ _ tm) h
    · exact .of_cache rfl
  all_goals exact .of_cache rfl

theorem State.cacheKept_takeService (s : State) : s.CacheKept s.takeService := by
  unfold State.takeService
  split
  · exact .refl s
  · exact (State.cacheKept_serveHead _ _ _).before rfl

/-! ### Records (R142 to R146) -/

theorem cacheKept_startDeferring (n : Nat) (s : State) (ds : List Deferred) :
    s.CacheKept (startDeferring n s ds).state := by
  induction n generalizing s ds with
  | zero => exact .refl s
  | succ n ih =>
    unfold startDeferring
    split
    · exact .refl s
    · exact (ih _ _).before (State.startCycle_cache ..)

theorem State.cacheKept_enterHeld (s : State) (h : Head) (r : JointRecord) : s.CacheKept (s.enterHeld h r) := by
  unfold State.enterHeld
  dsimp only
  split
  · exact (State.cacheKept_nextWork _ h).before rfl
  · exact .of_cache rfl

theorem cacheKept_refill (n : Nat) (s : State) (ds : List Deferred) : s.CacheKept (refill n s ds).state := by
  induction n generalizing s ds with
  | zero => exact .refl s
  | succ n ih =>
    unfold refill
    split
    · split
      · next h r _ =>
        refine ((s.cacheKept_enterHeld h r).trans ?_).trans (ih _ _)
        exact (cacheKept_startDeferring 32 _ ds).before (State.modCarrier_cache ..)
      · split
        · exact (ih _ _).before rfl
        · exact .refl s
    · exact .refl s

theorem cacheKept_terminateDeferred (ds : List Deferred) (s : State) : s.CacheKept (terminateDeferred ds s) := by
  induction ds generalizing s with
  | nil => exact .refl s
  | cons d ds ih => exact ((s.cacheKept_terminate _ _).trans (State.cacheKept_conclude _)).trans (ih _)

theorem State.cacheKept_takeRecords (s : State) (n : Nat) : s.CacheKept (s.takeRecords n) := by
  refine .trans ?_ (cacheKept_terminateDeferred _ _)
  exact (cacheKept_refill n _ []).before rfl

theorem cacheKept_readRecordsWork (p : List Byte) (s : State) : s.CacheKept (readRecordsWork p s).state := by
  unfold readRecordsWork
  dsimp only
  split
  · exact .refl s
  · split
    · exact .refl s
    · rw [Answer.ok_state]
      exact s.cacheKept_takeRecords _

/-! ### The requests of the station (R20, R121, R162, R164, R174, R175) -/

theorem writeStepsWork_cache (p : List Byte) (s : State) : (writeStepsWork p s).state.cache = s.cache := by
  unfold writeStepsWork
  dsimp only
  split
  · rfl
  · split
    · rfl
    · split <;> rfl

theorem placeCutFrames_cache (hs : List Head) (s : State) : (placeCutFrames hs s).cache = s.cache := by
  induction hs generalizing s with
  | nil => rfl
  | cons h hs ih => exact ih _

theorem setBudgetWork_cache (p : List Byte) (s : State) : (setBudgetWork p s).state.cache = s.cache := by
  unfold setBudgetWork State.applyBudget
  split
  · rfl
  · dsimp only [Answer.ok]
    split
    · exact placeCutFrames_cache _ _
    · rfl

theorem setNoticesWork_cache (p : List Byte) (s : State) : (setNoticesWork p s).state.cache = s.cache := by
  unfold setNoticesWork
  split
  · rfl
  · exact State.announcePending_cache _

theorem readStatusWork_cache (p : List Byte) (s : State) : (readStatusWork p s).state.cache = s.cache := by
  unfold readStatusWork
  split
  · rfl
  · dsimp only [Answer.ok]
    split <;> rfl

/-- SET_STATION changes the fetch limit alone. -/
theorem cacheKept_setStationWork (p : List Byte) (s : State) : s.CacheKept (setStationWork p s).state := by
  unfold setStationWork
  dsimp only
  split
  · exact .refl s
  · split
    · exact .refl s
    · dsimp only [Answer.ok]
      refine .trans ?_ (.of_cache (State.announcePending_cache _))
      exact .of_entryAt fun _ => rfl

/-- At reset the entries are INVALID and stand in the order of their numbers (R44). -/
theorem State.reset_entryAt (e : EntryIx) : State.reset.entryAt e = Entry.atReset e := by
  simp [State.entryAt, State.reset]

/-- The entries after a reset satisfy both laws. -/
theorem State.CacheKept.of_reset (same : ∀ e, t.entryAt e = Entry.atReset e) : s.CacheKept t where
  recency _ := by
    simp only [State.RecencyPermutation, same, Entry.atReset]
    exact ⟨fun e => e.isLt, fun e f => Fin.ext⟩
  one _ c e f he _ := by
    rw [same] at he
    cases he

theorem cacheKept_resetStationWork (p : List Byte) (s : State) : s.CacheKept (resetStationWork p s).state := by
  unfold resetStationWork
  split
  · exact .refl s
  · exact .of_reset State.reset_entryAt

/-! ### Each row of the opcode table -/

theorem takes_cacheKept {f : State → State} (hf : s.CacheKept (f s)) (h : takes f s = .next t) : s.CacheKept t := by
  unfold takes State.live at h
  split at h <;> cases h
  · exact .refl s
  · exact hf

theorem event_cacheKept {work : State → State} (hw : s.CacheKept (work s)) (h : event work s = .next t) :
    s.CacheKept t :=
  takes_cacheKept (f := fun s => (work s).report) (hw.after (State.report_cache _)) h

theorem cacheKept_consumed {src : Byte} {work : State → State} (hw : s.CacheKept (work s)) :
    s.CacheKept (consumed src work s) := by
  unfold consumed
  split
  · exact hw
  · exact .of_cache ((State.report_cache _).trans s.raiseForeign_cache)

theorem unanswered_cacheKept {src : Byte} {work : State → State} (hw : s.CacheKept (work s))
    (h : unanswered src work s = .next t) : s.CacheKept t :=
  takes_cacheKept (cacheKept_consumed (hw.after (State.report_cache _))) h

/-- An answered frame keeps what the work of its block keeps. -/
theorem answered_cacheKept {kind code : Nat} {src tag : Byte} {work : State → Answer}
    (hw : ∀ u : State, u.CacheKept (work u).state) (h : takes (answered kind code src tag work) s = .next t) :
    s.CacheKept t := by
  refine takes_cacheKept ?_ h
  unfold answered
  refine cacheKept_consumed ?_
  dsimp only
  split
  · refine .trans ?_ (.of_cache (State.report_cache _))
    exact (hw _).before rfl
  · exact .of_cache ((State.report_cache _).trans (s.raise_cache _ _))

theorem takeRow_cacheKept {c : Instr} (h : takeRow c s = .next t) : s.CacheKept t := by
  have still {p : List Byte} {work : List Byte → State → Answer} (hw : ∀ p u, (work p u).state = u) (u : State) :
      u.CacheKept (work p u).state := by rw [hw]; exact .refl u
  have beside {p : List Byte} {work : List Byte → State → Answer} (hw : ∀ p u, (work p u).state.cache = u.cache)
      (u : State) : u.CacheKept (work p u).state := .of_cache (hw p u)
  cases c
  case unknownRequest src tag payload =>
    replace h : execUnknownRequest src tag payload s = .next t := h
    unfold execUnknownRequest at h
    split at h
    · exact answered_cacheKept (fun u => .refl u) h
    · cases h
  case frameArrival | ringOutSend | interlockOpening | interlockClosing | deviceReset | deviceResetEnd
      | stalenessExpiry | dwellExpiry | stepTimeout | fetchTimerExpiry | settleTimerExpiry | service =>
    cases h; exact .refl s
  case sample => exact unanswered_cacheKept (.of_cache (s.takeSample_cache _ _)) h
  case dstat => exact unanswered_cacheKept (s.cacheKept_takeDstat _ _) h
  case purgeOk => exact unanswered_cacheKept (s.cacheKept_purgeOk _) h
  case purgeLost => exact unanswered_cacheKept (s.cacheKept_purgeLost _) h
  case identify => exact answered_cacheKept (still fun p u => identifyWork_state u p) h
  case readHead => exact answered_cacheKept (still fun p u => readHeadWork_state u p) h
  case readSteps => exact answered_cacheKept (still fun p u => readStepsWork_state u p) h
  case readClass => exact answered_cacheKept (still readClassWork_state) h
  case setBudget => exact answered_cacheKept (beside setBudgetWork_cache) h
  case setHead => exact answered_cacheKept (beside setHeadWork_cache) h
  case writeSteps => exact answered_cacheKept (beside writeStepsWork_cache) h
  case setNotices => exact answered_cacheKept (beside setNoticesWork_cache) h
  case readStatus => exact answered_cacheKept (beside readStatusWork_cache) h
  case setStation => exact answered_cacheKept (cacheKept_setStationWork _) h
  case flushClass => exact answered_cacheKept (cacheKept_flushClassWork _) h
  case halt => exact answered_cacheKept (cacheKept_haltWork _) h
  case clearFault => exact answered_cacheKept (cacheKept_clearFaultWork _) h
  case readRecords => exact answered_cacheKept (cacheKept_readRecordsWork _) h
  case resetStation => exact answered_cacheKept (cacheKept_resetStationWork _) h
  case carrier => exact answered_cacheKept (cacheKept_carrierWork _) h
  case release => exact answered_cacheKept (cacheKept_releaseWork _) h
  case classload => exact answered_cacheKept (cacheKept_classloadWork _) h

theorem consume_cacheKept {f : Frame} (h : consume f s = .next t) : s.CacheKept t := by
  unfold consume at h
  split at h
  · exact takeRow_cacheKept h
  · exact takes_cacheKept (f := fun s => s.raiseForeign.report)
      (.of_cache ((State.report_cache _).trans s.raiseForeign_cache)) h

theorem execFrameArrival_cacheKept {bytes : List Byte} (h : execFrameArrival bytes s = .next t) : s.CacheKept t := by
  have offered : s.CacheKept (s.offerForward bytes) := .of_cache (s.offerForward_cache bytes)
  unfold execFrameArrival at h
  split at h
  · exact event_cacheKept (.of_cache (s.raise_cache _ _)) h
  · cases h; exact .refl s
  · exact consume_cacheKept h
  · split at h
    · unfold State.live at h
      split at h
      · exact consume_cacheKept h
      · exact offered.trans (consume_cacheKept h)
    · exact event_cacheKept offered h
  · exact event_cacheKept offered h

/-! ### Expiries and resets -/

/-- A cycle ended by an event. -/
theorem State.cacheKept_endNow (s : State) (h : Head) (e : Ending) : s.CacheKept (s.terminate h e).conclude :=
  (s.cacheKept_terminate h e).trans (State.cacheKept_conclude _)

theorem execStalenessExpiry_cacheKept {h : Head} (ht : execStalenessExpiry h s = .next t) : s.CacheKept t := by
  refine event_cacheKept ?_ ht
  split
  · exact s.cacheKept_endNow h _
  · exact .refl s

theorem execDwellExpiry_cacheKept {h : Head} (ht : execDwellExpiry h s = .next t) : s.CacheKept t := by
  refine event_cacheKept ?_ ht
  split
  · exact State.cacheKept_concludeProgress (s.takeEndEvent_cache h) h
  · exact .refl s

theorem execStepTimeout_cacheKept {h : Head} (ht : execStepTimeout h s = .next t) : s.CacheKept t := by
  refine event_cacheKept ?_ ht
  split
  · split
    · exact s.cacheKept_endNow h _
    · exact .refl s
  · exact .refl s

theorem execSettleTimerExpiry_cacheKept {h : Head} (ht : execSettleTimerExpiry h s = .next t) : s.CacheKept t := by
  refine event_cacheKept ?_ ht
  split
  · exact (State.cacheKept_startsDone _).before rfl
  · exact .refl s

theorem execFetchTimerExpiry_cacheKept {e : EntryIx} (ht : execFetchTimerExpiry e s = .next t) : s.CacheKept t := by
  refine event_cacheKept ?_ ht
  split
  · exact s.cacheKept_expireFetch e
  · exact .refl s

theorem execDeviceResetEnd_cacheKept {strap : Byte} {ilk : Bool} (h : execDeviceResetEnd strap ilk s = .next t) :
    s.CacheKept t := by
  unfold execDeviceResetEnd at h
  cases h
  split <;> exact .of_cache rfl

theorem exec_cacheKept {c : Instr} (h : exec c s = .next t) : s.CacheKept t := by
  have row : takeRow c s = .next t → s.CacheKept t := takeRow_cacheKept
  cases c
  case deviceReset => cases h; exact .of_reset State.reset_entryAt
  case frameArrival => exact execFrameArrival_cacheKept h
  case ringOutSend => exact takes_cacheKept (f := fun s => s.modRing RingPort.send) (.of_cache rfl) h
  case interlockOpening =>
    exact (event_cacheKept (s := s.setIlk false) (State.cacheKept_openInterlock _) h).before rfl
  case interlockClosing =>
    exact (event_cacheKept (s := s.setIlk true) (State.cacheKept_closeInterlock _) h).before rfl
  case deviceResetEnd => exact execDeviceResetEnd_cacheKept h
  case stalenessExpiry => exact execStalenessExpiry_cacheKept h
  case dwellExpiry => exact execDwellExpiry_cacheKept h
  case stepTimeout => exact execStepTimeout_cacheKept h
  case settleTimerExpiry => exact execSettleTimerExpiry_cacheKept h
  case fetchTimerExpiry => exact execFetchTimerExpiry_cacheKept h
  case service => exact event_cacheKept s.cacheKept_takeService h
  all_goals exact row h

theorem State.cacheKept_tick (s : State) : s.CacheKept s.tick := by
  have entry (e : EntryIx) : s.tick.entryAt e = (s.entryAt e).elapse := s.elapse_entryAt e
  refine .of_entries (fun e => ?_) fun e c h => ?_
  · rw [entry, (Entry.elapse_users _).2]
  · rwa [entry, Entry.elapse_matchesId] at h

theorem step_cacheKept (h : step s = .next t) : s.CacheKept t := by
  unfold step at h
  split at h
  · exact (exec_cacheKept h).before rfl
  · cases h
    exact s.cacheKept_tick

end Sys2Proof.Machine

open Sys2Proof Sys2Proof.Machine

/-- Settles O12: each command keeps both laws, by what it does to the entries. -/
theorem cacheLawsKept : Obligations.CacheLawsKept := by
  intro s t h
  obtain ⟨recency, one⟩ := step_cacheKept h
  exact ⟨recency, one⟩

end

section
/-! The end of a fetch without a load: the entry, its heads and their carriers, in the words of the statement (R35, R81). -/

namespace Sys2Proof.Machine

variable {s t u : State} {e : EntryIx}

/-! ### One head (R77, R81) -/

/-- The context of a head, already unbound, whose class has become unavailable (R77, R81). -/
def HeadCtx.unavailable (c : HeadCtx) : HeadCtx :=
  { c.advance with state := .faulted, cause := some .classUnavailable, reqs := none }

/-- The head's current assignment names a carrier. -/
def State.names (s : State) (id : CarrierId) (h : Head) : Bool := (s.ctxAt h).current.any fun c => c.asg.carrier = id

/-- An entry of the Carrier Table with `n` of its assignments discarded (R59). -/
def CarrierEntry.discardedBy (c : CarrierEntry) (n : Nat) : CarrierEntry :=
  { c with live := c.live - n, notStarted := c.notStarted + n }

/-- The head has a promoted assignment, no binding, and does not wait for a class. -/
structure State.Unserved (s : State) (h : Head) : Prop where
  unbound : (s.ctxAt h).binding = none
  away : ∀ w ∈ s.cache.wait, w.head ≠ h
  current : (s.ctxAt h).current.isSome = true

theorem State.leaveWait_of_away {h : Head} (away : ∀ w ∈ s.cache.wait, w.head ≠ h) : s.leaveWait h = s := by
  have same : (s.cache.wait.filter fun w => decide (w.head ≠ h)) = s.cache.wait :=
    List.filter_eq_self.mpr fun w hw => by simpa using away w hw
  show s.setWait (s.cache.wait.filter fun w => decide (w.head ≠ h)) = s
  rw [same, State.setWait_self]

/-- The fault of one head leaves its context, its carrier's account and the notices changed. -/
theorem State.Unserved.classUnavailable {h : Head} (lost : s.Unserved h) :
    (∀ j, (s.classUnavailable h).ctxAt j = if j = h then (s.ctxAt h).unavailable else s.ctxAt j) ∧
      (s.classUnavailable h).carriers = s.carriers.map (fun c => c.discardedBy (if s.names c.id h then 1 else 0)) ∧
      s.classUnavailable h = { s with
        ctx := (s.classUnavailable h).ctx, carriers := (s.classUnavailable h).carriers
        notices := (s.classUnavailable h).notices } := by
  obtain ⟨cur, hcur⟩ := Option.isSome_iff_exists.mp lost.current
  have eq : s.classUnavailable h = ((s.modCtx h HeadCtx.unavailable).reportDiscard cur.asg.carrier).reportFault := by
    unfold State.classUnavailable State.discardCurrent
    simp only [hcur, Option.map_some, State.unbind_of_none lost.unbound, State.leaveWait_of_away lost.away]
    have order (v : State) (f : HeadCtx → HeadCtx) : (v.reportDiscard cur.asg.carrier).modCtx h f =
        (v.modCtx h f).reportDiscard cur.asg.carrier := rfl
    rw [order, State.modCtx_modCtx]
    rfl
  rw [eq]
  refine ⟨fun j => State.modCtx_ctxAt s h j _, ?_, rfl⟩
  show (s.carriers.map fun c => if c.id = cur.asg.carrier then c.discarded else c) = _
  refine List.map_congr_left fun c _ => ?_
  by_cases hc : c.id = cur.asg.carrier
  · rw [if_pos hc]
    simp [CarrierEntry.discarded, CarrierEntry.discardedBy, State.names, hcur, hc]
  · rw [if_neg hc]
    simp [CarrierEntry.discardedBy, State.names, hcur, Ne.symm hc]

/-! ### The heads of an entry in turn -/

/-- What the faults of the heads named leave: their contexts, the accounts of their carriers and the notices (R81). -/
structure State.Faulting (hs : List Head) (s t : State) : Prop where
  ctx : ∀ j, t.ctxAt j = if j ∈ hs then (s.ctxAt j).unavailable else s.ctxAt j
  carriers : t.carriers = s.carriers.map fun c => c.discardedBy (hs.filter (s.names c.id)).length
  rest : t = { s with ctx := t.ctx, carriers := t.carriers, notices := t.notices }

theorem faultUnavailable_faulting {hs : List Head} (lost : ∀ h ∈ hs, s.Unserved h) (distinct : hs.Nodup) :
    State.Faulting hs s (faultUnavailable hs s) := by
  induction hs generalizing s with
  | nil => exact ⟨fun j => by simp [faultUnavailable], by simp [faultUnavailable, CarrierEntry.discardedBy], rfl⟩
  | cons h hs ih =>
    obtain ⟨fresh, distinct⟩ := List.nodup_cons.mp distinct
    obtain ⟨ctx, carriers, rest⟩ := (lost h List.mem_cons_self).classUnavailable
    generalize hv : s.classUnavailable h = v at ctx carriers rest
    have other {j : Head} (hj : j ∈ hs) : v.ctxAt j = s.ctxAt j := by
      rw [ctx, if_neg]
      rintro rfl
      exact fresh hj
    have lost' (j : Head) (hj : j ∈ hs) : v.Unserved j := by
      have was := lost j (List.mem_cons_of_mem _ hj)
      refine ⟨by rw [other hj]; exact was.unbound, ?_, by rw [other hj]; exact was.current⟩
      rw [rest]
      exact was.away
    have named (id : CarrierId) : hs.filter (v.names id) = hs.filter (s.names id) :=
      List.filter_congr fun j hj => by rw [State.names, State.names, other hj]
    have tail := ih lost' distinct
    rw [faultUnavailable, hv]
    refine ⟨fun j => ?_, ?_, ?_⟩
    · rw [tail.ctx, ctx]
      by_cases hj : j = h
      · subst hj; simp [fresh]
      · simp [hj]
    · rw [tail.carriers, carriers, List.map_map]
      refine List.map_congr_left fun c _ => ?_
      have id : (c.discardedBy (if s.names c.id h then 1 else 0)).id = c.id := rfl
      rw [Function.comp_apply, id, named, List.filter_cons]
      unfold CarrierEntry.discardedBy
      cases s.names c.id h
      · simp
      · simp only [if_true, List.length_cons, CarrierEntry.mk.injEq, true_and]
        omega
    · rw [tail.rest, rest]

/-! ### The state of the statement -/

/-- The heads of an ended fetch whose current assignment names a carrier, counted. -/
def State.lostBy (s : State) (e : EntryIx) (id : CarrierId) : Nat :=
  (allHeads.filter fun h => ((s.ctxAt h).binding.any fun b => b.entry = e) && s.names id h).length

/-- A head context once the fetch of an entry has ended: a head bound to it has lost its binding and its assignment and is
FAULTED (R35, R81). -/
def State.lostCtx (s : State) (e : EntryIx) (h : Head) : HeadCtx :=
  if (s.ctxAt h).binding.any fun b => b.entry = e then { s.ctxAt h with binding := none }.unavailable else s.ctxAt h

/-- The state once the fetch of an entry has ended and its heads have been faulted (R35, R81). -/
def State.fetchLost (s : State) (e : EntryIx) : State :=
  { s with
    ctx := Vector.ofFn (s.lostCtx e)
    cache := { s.cache with entries := Vector.ofFn fun f =>
      if f = e then { s.entryAt e with body := .invalid, users := 0 } else s.entryAt f }
    carriers := s.carriers.map fun c => c.discardedBy (s.lostBy e c.id) }

theorem State.fetchLost_ctxAt (h : Head) : (s.fetchLost e).ctxAt h = s.lostCtx e h := by
  simp [State.fetchLost, State.ctxAt]

theorem State.fetchLost_entryAt (f : EntryIx) : (s.fetchLost e).entryAt f =
    if f = e then { s.entryAt e with body := .invalid, users := 0 } else s.entryAt f := by
  simp [State.fetchLost, State.entryAt]

theorem State.lostBy_eq (id : CarrierId) : s.lostBy e id = ((s.boundHeads e).filter (s.names id)).length := by
  rw [State.lostBy, State.boundHeads, List.filter_filter]
  refine congrArg List.length (List.filter_congr fun h _ => ?_)
  rw [Bool.and_comm]

theorem State.unfetched_wait (s : State) (e : EntryIx) : (s.unfetched e).cache.wait = s.cache.wait := by
  show (dropBindings (s.boundHeads e) s).cache.wait = s.cache.wait
  rw [dropBindings_cache]

/-- The heads of a fetch have promoted assignments and do not wait, once they have lost it. -/
theorem State.Sound.unserved (hs : s.Sound Flight.none) {c : ClassId} {n : Nat} (he : (s.entryAt e).body = .fetching c n)
    {h : Head} (hh : h ∈ s.boundHeads e) : (s.unfetched e).Unserved h := by
  have own : (s.unfetched e).ctxAt h = { s.ctxAt h with binding := none } := by rw [State.unfetched_ctxAt, if_pos hh]
  have wait : (s.unfetched e).cache.wait = s.cache.wait := s.unfetched_wait e
  refine ⟨by rw [own], ?_, ?_⟩
  · rw [wait]
    rintro w hw rfl
    obtain ⟨b, hb, -⟩ := State.mem_boundHeads.mp hh
    have unbound := (hs.cache.waiters.2 w hw).2.1
    rw [hb] at unbound
    cases unbound
  · have shape : (s.ctxAt h).Shaped := (hs.heads h).shaped
    simp only [HeadCtx.Shaped, hs.arming_of_fetching he hh] at shape
    rw [own]
    obtain ⟨cur, hcur, -⟩ := (Option.any_eq_true ..).mp shape.1
    exact Option.isSome_iff_exists.mpr ⟨cur, hcur⟩

/-- A state with the heads of `s`, in which the faults of an ended fetch have been made, is that of the statement. -/
theorem State.Faulting.fetchLost (faults : State.Faulting (s.boundHeads e) u t) (binds : s.BindsOnly u)
    (ring : u.ring = s.ring) (wait : u.cache.wait = s.cache.wait) (owed : u.cache.retryOwed = true)
    (entries : ∀ f, u.entryAt f = if f = e then { s.entryAt e with body := .invalid, users := 0 } else s.entryAt f)
    (heads : ∀ j, u.ctxAt j = if j ∈ s.boundHeads e then { s.ctxAt j with binding := none } else s.ctxAt j) :
    t = { (s.fetchLost e).oweRetry with notices := t.notices } := by
  obtain ⟨ctx, carriers, rest⟩ := faults
  have bound (h : Head) : h ∈ s.boundHeads e ↔ ((s.ctxAt h).binding.any fun b => decide (b.entry = e)) = true := by
    simp [State.boundHeads, mem_allHeads]
  have names (id : CarrierId) (h : Head) : u.names id h = s.names id h := by
    unfold State.names
    rw [heads]
    split <;> rfl
  have owing (v : State) (n : Notices) : (∀ j, ({ v.oweRetry with notices := n } : State).ctxAt j = v.ctxAt j) ∧
      ∀ f, ({ v.oweRetry with notices := n } : State).entryAt f = v.entryAt f := ⟨fun _ => rfl, fun _ => rfl⟩
  have cache : t.cache = u.cache := by rw [rest]
  have intake : t.intake = s.intake := by rw [rest]; exact binds.intake
  have share : t.share = s.share := by rw [rest]; exact binds.share
  have queue : t.queue = s.queue := by rw [rest]; exact binds.queue
  have base : t.base = s.base := by rw [rest]; exact binds.base
  have ring : t.ring = s.ring := by rw [rest]; exact ring
  refine State.ext_at base ?_ ?_ ?_ (fun f => ?_) ?_ (fun h => ?_) (fun h => ?_) (fun h => ?_) queue ring rfl
  · rw [cache, wait]; rfl
  · rw [cache, binds.fetchLimit]; rfl
  · rw [cache, owed]; rfl
  · rw [(owing _ _).2, State.fetchLost_entryAt, State.entryAt, cache]
    exact entries f
  · rw [carriers, binds.carriers]
    refine List.map_congr_left fun c _ => ?_
    rw [State.lostBy_eq, funext (names c.id)]
  · rw [(owing _ _).1, State.fetchLost_ctxAt, ctx, heads, State.lostCtx]
    by_cases hh : h ∈ s.boundHeads e
    · rw [if_pos hh, if_pos hh, if_pos ((bound h).mp hh)]
    · rw [if_neg hh, if_neg hh, if_neg fun b => hh ((bound h).mpr b)]
  · rw [State.intakeAt, intake]; rfl
  · rw [State.rowAt, share]; rfl

/-- The state once the fetch of an entry has ended and its heads have been faulted, with their reports made (R35, R81). -/
def State.fetchFaulted (s : State) (e : EntryIx) : State := faultUnavailable (s.boundHeads e) (s.unfetched e)

theorem State.expireFetch_eq (s : State) (e : EntryIx) :
    s.expireFetch e = (s.fetchFaulted e).closeCarriers.runRetry.startReady.closeCarriers := rfl

section
variable (hs : s.Sound Flight.none) {c : ClassId} {n : Nat} (he : (s.entryAt e).body = .fetching c n)
include hs he

theorem State.Sound.fetchFaulted_eq :
    s.fetchFaulted e = { (s.fetchLost e).oweRetry with notices := (s.fetchFaulted e).notices } :=
  (faultUnavailable_faulting (fun _ hh => hs.unserved he hh) (allHeads_nodup.filter _)).fetchLost
    ((dropBindings_binds _ s).trans ⟨rfl, rfl, rfl, rfl, rfl, rfl, rfl, rfl⟩) (dropBindings_ring _ s) (s.unfetched_wait e)
    rfl (s.unfetched_entryAt e) (s.unfetched_ctxAt e)

theorem State.Sound.fetchFaulted : (s.fetchFaulted e).Sound (.losing []) :=
  (hs.unfetched he).faultUnavailable (allHeads_nodup.filter _)

theorem State.Sound.fetchFaulted_like : (s.fetchFaulted e).Like (s.fetchLost e).oweRetry := by
  rw [hs.fetchFaulted_eq he]
  rfl

theorem State.Sound.fetchFaulted_ctxAt (h : Head) : (s.fetchFaulted e).ctxAt h = s.lostCtx e h := by
  rw [(hs.fetchFaulted_like he).ctxAt]
  show (s.fetchLost e).ctxAt h = _
  rw [State.fetchLost_ctxAt]

theorem State.Sound.fetchFaulted_entryAt (f : EntryIx) : (s.fetchFaulted e).entryAt f =
    if f = e then { s.entryAt e with body := .invalid, users := 0 } else s.entryAt f := by
  rw [(hs.fetchFaulted_like he).entryAt]
  show (s.fetchLost e).entryAt f = _
  rw [State.fetchLost_entryAt]

/-- Where no carrier loses its last assignments, none closes. -/
theorem State.Sound.fetchFaulted_quiet (quiet : ∀ c ∈ s.carriers, s.closes c = false)
    (left : ∀ c ∈ s.carriers, s.lostBy e c.id < c.live ∨ s.lostBy e c.id = 0) :
    (s.fetchFaulted e).closeCarriers = s.fetchFaulted e := by
  have like := hs.fetchFaulted_like he
  have held (j : Head) : ((s.fetchFaulted e).ctxAt j).heldRecord = (s.ctxAt j).heldRecord := by
    rw [hs.fetchFaulted_ctxAt he, State.lostCtx]
    split <;> rfl
  refine State.closeCarriers_of_none fun x hx => ?_
  rw [like.carriers] at hx
  obtain ⟨c, hc, rfl⟩ := List.mem_map.mp (show x ∈ s.carriers.map fun c => c.discardedBy (s.lostBy e c.id) from hx)
  rcases left c hc with more | none
  · have alive : ¬ c.live - s.lostBy e c.id = 0 := by omega
    simp [State.closes, CarrierEntry.discardedBy, alive]
  · have live : (c.discardedBy (s.lostBy e c.id)).live = c.live := by rw [none]; rfl
    rw [State.closes_congr (c := c) (x := c.discardedBy (s.lostBy e c.id)) held rfl live rfl]
    exact quiet c hc

end

end Sys2Proof.Machine
end

section
/-! The wait-list retry after an ended fetch, in the words of the statement (R33). -/

namespace Sys2Proof.Machine

variable {s t u : State} {e : EntryIx}

/-! ### One lookup of the retry -/

/-- A lookup that binds adds at most a CLASSFETCH to the general queue (R31). -/
theorem State.tryBind_general {h : Head} {c : ClassId} {r : Bool} {b : Bound} (hb : s.tryBind h c r = some b) :
    b.state.ring.general = s.ring.general ∨
      ∃ f : Frame, f.kind = 0x06 ∧ b.state.ring.general = s.ring.general ++ [f] := by
  have fetched (v : State) (e : EntryIx) : (v.fetchInto h c e).ring.general = v.ring.general ∨
      ∃ f : Frame, f.kind = 0x06 ∧ (v.fetchInto h c e).ring.general = v.ring.general ++ [f] := by
    rw [State.fetchInto_general]
    split
    · exact .inr ⟨_, rfl, rfl⟩
    · exact .inl (List.append_nil _)
  have found := s.lookup h c r
  rw [hb] at found
  cases found with
  | resident => exact .inl rfl
  | fetching => exact .inl rfl
  | refreshed => exact fetched _ _
  | missed => exact fetched _ _

/-- The state after one lookup of the retry that binds, its requirement following the entry (R33, R51). -/
def State.retryBound (b : Bound) (h : Head) : State := (b.state.setBound h b.resident).pay

theorem State.retryBound_entryAt (b : Bound) (h : Head) (f : EntryIx) :
    (State.retryBound b h).entryAt f = b.state.entryAt f := rfl

theorem State.retryBound_general (b : Bound) (h : Head) :
    (State.retryBound b h).ring.general = b.state.ring.general := rfl

theorem State.retryBound_ctxAt {h : Head} {c : ClassId} {r : Bool} {b : Bound} {x : Binding}
    (hb : s.tryBind h c r = some b) (bound : (b.state.ctxAt h).binding = some x) (j : Head) :
    (State.retryBound b h).ctxAt j = if j = h then
      { s.ctxAt j with binding := some x, reqs := (s.ctxAt j).reqs.map fun r => { r with bound := b.resident } }
    else s.ctxAt j := by
  obtain ⟨y, ctx⟩ := (State.tryBind_boundFrom hb).ctx
  obtain rfl : y = x := by
    have own := ctx h
    rw [if_pos rfl] at own
    rw [own] at bound
    exact Option.some.inj bound
  show (b.state.setBound h b.resident).ctxAt j = _
  rw [State.setBound, State.modCtx_ctxAt]
  by_cases hj : j = h
  · subst hj
    rw [if_pos rfl, if_pos rfl, ctx, if_pos rfl]
  · rw [if_neg hj, if_neg hj, ctx, if_neg hj]

/-- Beside the entries, the contexts and the general queue, a lookup of the retry leaves everything. -/
theorem State.retryBound_eq {h : Head} {c : ClassId} {r : Bool} {b : Bound} (hb : s.tryBind h c r = some b) :
    State.retryBound b h = { s.pay with
      cache := { s.pay.cache with entries := (State.retryBound b h).cache.entries }
      ctx := (State.retryBound b h).ctx
      ring := { s.pay.ring with general := (State.retryBound b h).ring.general } } := by
  have binds := State.bindsOnly_tryBind hb
  have wait := (State.tryBind_boundFrom hb).wait
  have ring : b.state.ring = { s.ring with general := b.state.ring.general } := by
    have := congrArg (fun r : RingPort => { r with general := b.state.ring.general }) binds.ring
    exact this
  exact State.ext_at binds.base wait binds.fetchLimit rfl (fun _ => rfl) binds.carriers (fun _ => rfl)
    (fun j => congrArg (fun x : PerHead Intake => x[j.val]) binds.intake)
    (fun j => congrArg (fun x : PerHead Row => x[j.val]) binds.share) binds.queue ring binds.notices

/-- What the retry leaves is what the statement says of each member in turn. -/
theorem retryWaiters_retried (ws : List Waiter) (one : s.OneMatch) :
    State.Retried ws s.pay (retryWaiters ws s).pay := by
  induction ws generalizing s with
  | nil => rfl
  | cons w ws ih =>
    unfold State.Retried retryWaiters
    cases hb : s.tryBind w.head w.classId w.refresh with
    | none =>
      refine ⟨s.pay, State.looksUp_of (u := s) (h := w.head) one (fun _ => rfl) rfl rfl rfl rfl (fun b x found => ?_)
        fun _ => ⟨rfl, fun _ => rfl⟩⟩
      rw [hb] at found
      cases found
    | some b =>
      refine ⟨State.retryBound b w.head, State.looksUp_of (u := s) (h := w.head) one (fun _ => rfl) rfl rfl rfl rfl
        (fun b' x found bound => ?_) fun starved => ?_⟩
      · rw [hb] at found
        cases found
        have general := State.tryBind_general hb
        have ctx := State.retryBound_ctxAt hb bound
        have tail := ih (s := b.state.setBound w.head b.resident) ((State.cacheKept_tryBind hb).one one)
        exact ⟨⟨ctx, general, State.retryBound_eq hb, tail⟩,
          State.retryBound_entryAt b w.head, fun f hf => hf⟩
      · rw [hb] at starved
        cases starved

end Sys2Proof.Machine
end

section
/-! FETCH_TIMER_EXPIRY: the faults of the heads, the retry, and the starts it brings (R33, R35, R52, R81). -/

namespace Sys2Proof.Machine

variable {s t : State} {e : EntryIx}

/-! ### The expiry as an event (R35) -/

theorem exec_fetchTimerExpiry_still (taking : s.Taking) (other : ∀ tag, (s.entryAt e).body ≠ .fetching tag 0) :
    exec (.fetchTimerExpiry e) s = .next s := by
  refine event_of_still taking ?_
  split
  · next tag body => exact absurd body (other tag)
  · rfl

theorem exec_fetchTimerExpiry_due (free : s.resetHeld = false) {tag : ClassId}
    (body : (s.entryAt e).body = .fetching tag 0) : exec (.fetchTimerExpiry e) s = .next (s.expireFetch e).report := by
  show event _ s = _
  rw [event, takes_free free]
  simp only [body]

/-! ### The retry after the faults -/

/-- The state once the retry that an ended fetch calls for has been made (R33). -/
def State.fetchRetried (s : State) (e : EntryIx) : State := (s.fetchFaulted e).closeCarriers.runRetry

theorem State.fetchRetried_adds (s : State) (e : EntryIx) : (s.fetchFaulted e).Adds (s.fetchRetried e) :=
  (State.adds_closeCarriers _).trans (State.adds_runRetry _)

section
variable (hs : s.Sound Flight.none) {tag : ClassId} {n : Nat} (he : (s.entryAt e).body = .fetching tag n)
include hs he

theorem State.Sound.fetchRetried : (s.fetchRetried e).Sound Flight.none := by
  have paid : (Flight.losing []).paid = Flight.none := by simp [Flight.losing, Flight.paid, Flight.none]
  have retried := (hs.fetchFaulted he).closeCarriers.runRetry fun j => by rw [Flight.losing_mode]; simp
  rwa [paid] at retried

/-- Where the retry has made no head ready, nothing follows it. -/
theorem State.Sound.expireFetch_of_none (first : (s.fetchRetried e).firstReady = none) :
    s.expireFetch e = s.fetchRetried e := by
  have binds := State.bindsOnly_runRetry (s.fetchFaulted e).closeCarriers
  have held (j : Head) : ((s.fetchRetried e).ctxAt j).heldRecord =
      ((s.fetchFaulted e).closeCarriers.ctxAt j).heldRecord := by
    have seat := congrArg HeadCtx.heldRecord (State.runRetry_seat (s.fetchFaulted e).closeCarriers j)
    exact seat
  show (s.fetchRetried e).startReady.closeCarriers = _
  rw [State.startReady_of_none first]
  refine State.closeCarriers_of_none fun c hc => ?_
  rw [State.closes_congr (c := c) held rfl rfl rfl]
  exact (hs.fetchFaulted he).closeCarriers_settled c (binds.carriers ▸ hc)

end

/-! ### Where no head waits -/

section
variable (hs : s.Sound Flight.none) {tag : ClassId} {n : Nat} (he : (s.entryAt e).body = .fetching tag n)
  (wait : s.cache.wait = [])
include hs he wait

/-- With no head waiting the retry changes nothing but its mark. -/
theorem State.Sound.fetchRetried_eq : s.fetchRetried e = (s.fetchFaulted e).closeCarriers.pay := by
  refine State.runRetry_of_no_wait ?_
  rw [State.closeCarriers_cache, (hs.fetchFaulted_like he).cache]
  exact wait

theorem State.Sound.fetchRetried_ctxAt (h : Head) : (s.fetchRetried e).ctxAt h = s.lostCtx e h := by
  rw [hs.fetchRetried_eq he wait]
  show (s.fetchFaulted e).closeCarriers.ctxAt h = _
  rw [State.closeCarriers_ctxAt, hs.fetchFaulted_ctxAt he]

theorem State.Sound.fetchRetried_entryAt (f : EntryIx) : (s.fetchRetried e).entryAt f =
    if f = e then { s.entryAt e with body := .invalid, users := 0 } else s.entryAt f := by
  rw [hs.fetchRetried_eq he wait]
  show (s.fetchFaulted e).closeCarriers.entryAt f = _
  rw [State.closeCarriers_entryAt, hs.fetchFaulted_entryAt he]

/-- No head is ready: those of the entry are FAULTED, and the others stand as they stood. -/
theorem State.Sound.fetchRetried_firstReady (first : s.firstReady = none) : (s.fetchRetried e).firstReady = none := by
  refine State.firstReady_none_iff.mpr fun h => ?_
  have own := hs.fetchRetried_ctxAt he wait h
  unfold State.lostCtx at own
  split at own
  · unfold State.readyDesc
    rw [own, if_neg]
    rintro ⟨faulted, -⟩
    cases faulted
  · exact hs.readyDesc_none_of_ctx (by simp) own (State.firstReady_none_iff.mp first h)

/-- Beside the entry, the heads and their carriers an ended fetch changes nothing. -/
theorem State.Sound.fetchRetried_rest : (s.fetchRetried e).cache.wait = [] ∧ (s.fetchRetried e).base = s.base ∧
    (s.fetchRetried e).share = s.share ∧ (s.fetchRetried e).intake = s.intake ∧
    (s.fetchRetried e).ring.drive = s.ring.drive := by
  have like := hs.fetchFaulted_like he
  have base : (s.fetchFaulted e).base = s.base := like.view (v := State.base) fun _ => rfl
  rw [hs.fetchRetried_eq he wait]
  refine ⟨?_, ?_, ?_, ?_, ?_⟩
  · show (s.fetchFaulted e).closeCarriers.cache.wait = []
    rw [State.closeCarriers_cache, like.cache]
    exact wait
  · exact (State.closeCarriers_base _).trans base
  · refine Vector.ext fun i hi => ?_
    exact ((s.fetchFaulted e).closeCarriers_rowAt ⟨i, hi⟩).trans (like.rowAt ⟨i, hi⟩)
  · refine Vector.ext fun i hi => ?_
    exact ((s.fetchFaulted e).closeCarriers_intakeAt ⟨i, hi⟩).trans (like.intakeAt ⟨i, hi⟩)
  · show (s.fetchFaulted e).closeCarriers.ring.drive = s.ring.drive
    rw [State.closeCarriers_ring, like.view (v := fun u => u.ring.drive) fun _ => rfl]
    rfl

/-- Where no carrier closes, the accounts are those of the statement. -/
theorem State.Sound.fetchRetried_accounts (still : (s.fetchFaulted e).closeCarriers = s.fetchFaulted e) :
    (s.fetchRetried e).carriers = (s.fetchLost e).carriers ∧ (s.fetchRetried e).queue = s.queue := by
  have like := hs.fetchFaulted_like he
  rw [hs.fetchRetried_eq he wait, still]
  exact ⟨like.carriers, like.queue⟩

end

/-! ### Where heads wait -/

/-- The state the retry of the statement leaves. -/
def State.fetchOutcome (s : State) (e : EntryIx) : State := (retryWaiters s.cache.wait (s.fetchLost e).oweRetry).pay

theorem State.fetchOutcome_reserved (s : State) (e : EntryIx) :
    (s.fetchOutcome e).ring.reserved = s.ring.reserved :=
  State.reserved_of_port (bindsOnly_retryWaiters s.cache.wait (s.fetchLost e).oweRetry).port

theorem State.fetchOutcome_adds (s : State) (e : EntryIx) : s.Adds (s.fetchOutcome e) :=
  (State.Adds.of_eq (t := (s.fetchLost e).oweRetry) rfl).trans ((adds_retryWaiters _ _).trans (.of_eq rfl))

/-- The state of the statement keeps its class ids apart. -/
theorem State.fetchLost_oneMatch (one : s.OneMatch) : (s.fetchLost e).OneMatch := by
  have kept : s.CacheKept (s.fetchLost e) := by
    refine .of_entries (fun f => ?_) fun f c hit => ?_
    · rw [State.fetchLost_entryAt]
      split
      · next hf => rw [hf]
      · rfl
    · rw [State.fetchLost_entryAt] at hit
      split at hit
      · cases hit
      · exact hit
  exact kept.one one

section
variable (hs : s.Sound Flight.none) {tag : ClassId} {n : Nat} (he : (s.entryAt e).body = .fetching tag n)
  (quiet : (s.fetchFaulted e).closeCarriers = s.fetchFaulted e)
include hs

/-- The state of the statement is the one the retry starts from, with no retry owed. -/
theorem State.Sound.fetchLost_pay : (s.fetchLost e).oweRetry.pay = s.fetchLost e := by
  have owed : s.cache.retryOwed = false := by
    rw [← Bool.not_eq_true]
    exact fun owed => Bool.false_ne_true (hs.cache.owes owed)
  show { s.fetchLost e with cache := { (s.fetchLost e).cache with retryOwed := false } } = s.fetchLost e
  rw [← owed]
  rfl

include he quiet

theorem State.Sound.fetchRetried_like : (s.fetchOutcome e).Like (s.fetchRetried e) := by
  have like := hs.fetchFaulted_like he
  have owed : (s.fetchFaulted e).cache.retryOwed = true := by rw [like.cache]; rfl
  have wait : (s.fetchFaulted e).cache.wait = s.cache.wait := by rw [like.cache]; rfl
  unfold State.fetchRetried
  rw [quiet, State.runRetry, if_pos owed, wait]
  exact (retryWaiters_like s.cache.wait like.symm).modCache _

/-- Where the retry makes no head ready, the expiry leaves what the retry leaves, but for its announcements. -/
theorem State.Sound.fetchOutcome_alike (first : (s.fetchOutcome e).firstReady = none) :
    (s.fetchOutcome e).AlikeButNotices (s.expireFetch e).report := by
  have like := hs.fetchRetried_like he quiet
  have ring : (s.fetchFaulted e).ring = s.ring := by rw [hs.fetchFaulted_eq he]; rfl
  have reserved : (s.fetchRetried e).report.ring.reserved = (s.fetchOutcome e).ring.reserved := by
    rw [State.reserved_of_port (State.report_port _), State.fetchOutcome_reserved, ← ring]
    exact State.reserved_of_port ((State.runRetry_port _).trans (State.closeCarriers_port _))
  have adds : (s.fetchFaulted e).Adds (s.fetchRetried e).report := (s.fetchRetried_adds e).trans (State.adds_report _)
  rw [hs.expireFetch_of_none he (like.firstReady ▸ first)]
  refine ⟨?_, ?_⟩
  · have same := (like.trans (State.like_report _).symm).eq_with
    rwa [reserved] at same
  · rw [adds.replies, ring, (s.fetchOutcome_adds e).replies]

/-- Every head the retry makes ready starts (R52). -/
theorem State.Sound.fetchOutcome_started {h : Head} {d : ClassDesc} (on : (s.fetchOutcome e).ReadyOn h d) :
    (s.fetchOutcome e).CycleStarted (s.expireFetch e).report h d := by
  have work := hs.fetchRetried_like he quiet
  have result : (s.expireFetch e).report.Like (s.fetchRetried e).startReady.closeCarriers := State.like_report _
  obtain ⟨ctx, intake, row⟩ :=
    (hs.fetchRetried he).startReady_starts rfl Flight.none_ne_homeless ((work.readyOn h d).mp on)
  refine ⟨?_, ?_, ?_⟩
  · rw [result.ctxAt, State.closeCarriers_ctxAt, ctx, work.startedCtx]
  · rw [result.intakeAt, State.closeCarriers_intakeAt, intake, work.intakeAt, work.configAt]
  · rw [result.rowAt, State.closeCarriers_rowAt, row, work.store]

end

/-- The retry of the statement, from the state once the heads have been faulted (R33). -/
theorem State.Sound.fetchOutcome_retried (hs : s.Sound Flight.none) :
    State.Retried s.cache.wait (s.fetchLost e) (s.fetchOutcome e) := by
  have owing {u : State} (one : u.OneMatch) : u.oweRetry.OneMatch := one
  have retried := retryWaiters_retried s.cache.wait (owing (State.fetchLost_oneMatch (e := e) hs.cache.oneMatch))
  rwa [hs.fetchLost_pay] at retried

end Sys2Proof.Machine

open Sys2Proof Sys2Proof.Machine

/-- Settles O37: the faults of the heads as the state of the statement, and the retry and the starts from it. -/
theorem fetchExpiryActs : Obligations.FetchExpiryActs := by
  intro s e taking
  refine ⟨exec_fetchTimerExpiry_still taking, fun tag body lawful settled => ?_⟩
  have sound := lawful.sound
  have due := exec_fetchTimerExpiry_due taking.1 body
  have still := sound.fetchFaulted_quiet body settled.2
  refine ⟨fun wait => ⟨_, due, ?_⟩, fun left => ⟨_, s.fetchOutcome e, due, sound.fetchOutcome_retried,
    sound.fetchOutcome_alike body (still left), fun h d on => sound.fetchOutcome_started body (still left) on⟩⟩
  rw [sound.expireFetch_of_none body (sound.fetchRetried_firstReady body wait settled.1)]
  have like := (s.fetchRetried e).like_report
  obtain ⟨waits, base, share, intake, drive⟩ := sound.fetchRetried_rest body wait
  have base' : (s.fetchRetried e).report.base = s.base := (State.report_base _).trans base
  refine ⟨fun f => (like.entryAt f).trans (sound.fetchRetried_entryAt body wait f),
    fun h => (like.ctxAt h).trans (sound.fetchRetried_ctxAt body wait h), fun left => ?_, ?_, ?_, ?_,
    State.store_of_base base', congrArg Base.config base', ?_⟩
  · obtain ⟨carriers, queue⟩ := sound.fetchRetried_accounts body wait (still left)
    exact ⟨like.carriers.trans carriers, like.queue.trans queue⟩
  · rw [like.cache, waits]
  · exact (like.view (v := State.share) fun _ => rfl).trans share
  · exact (like.view (v := State.intake) fun _ => rfl).trans intake
  · exact (like.view (v := fun u => u.ring.drive) fun _ => rfl).trans drive

end
